-- ==== Sys2Proof/Word.lean ====
section
/-! DEFINITION. The widths of `utf8_encoder` (spec 00_scope.md R6, 10_state.md R24 to R27).
All values are unsigned (R7); bit 0 is the least significant bit. -/

namespace Sys2Proof

/-- One byte: a lane, or a location of DST (R24, R26). -/
abbrev Byte := BitVec 8

/-- A code point on `cp_i`, CP_W = 32 bits, any value legal (R6, R29). -/
abbrev Cp := BitVec 32

/-- A length class on `len` or `len_o`, LEN_W = 3 bits (R6, R102). -/
abbrev Len := BitVec 3

/-- The write enables `we_o[3:0]` (R24). -/
abbrev We := BitVec 4

/-- The packed bus `bytes_o[31:0]`, or DST seen as one word (R24, R43). -/
abbrev Word := BitVec 32

/-- The four byte lanes `lane_o[0..3]` (R24). -/
abbrev Lanes := Vector Byte 4

/-- The destination buffer's contents `DST[0..3]`, in the shape R27 gives it. -/
abbrev Memory := Vector Byte 4

end Sys2Proof
end

