-- ==== Sys2Proof/Config.lean ====
section
/-! DEFINITION. What is fixed when the block is built (spec 00_scope.md R6, 10_state.md R23). -/

namespace Sys2Proof

/-- LEAD_MASK, the one parameter of the block: the mask on the leading byte's payload (R6, D6). -/
inductive LeadMask where
  /-- The default: 0x1F, 0x0F, 0x07 for lengths 2, 3, 4 (R127). -/
  | canonical
  /-- Bug-compatible: 0x3F for all three (R128). -/
  | wide6
deriving DecidableEq, Repr

/-- The build's configuration. It has no address and cannot change while the block operates (R23). -/
structure Config where
  leadMask : LeadMask
deriving DecidableEq, Repr

/-- The default build: LEAD_MASK = CANONICAL (R6). -/
def Config.standard : Config := { leadMask := .canonical }

/-- CP_MAX, the largest code point that classifies (R6). -/
def cpMax : Nat := 0x10FFFF

end Sys2Proof
end

