-- ==== Sys2Proof/Machine/Classifier.lean ====
section
/-! DEFINITION. `length_classifier` (spec 40_length_classifier.md). -/

namespace Sys2Proof.Machine

/-- The classification function, total on all 32-bit values, unsigned comparisons (R100, R103). -/
def classify (cp : Cp) : Len :=
  if cp ≤ 0x0000007F#32 then 1#3
  else if cp ≤ 0x000007FF#32 then 2#3
  else if cp ≤ 0x0000FFFF#32 then 3#3
  else if cp ≤ 0x0010FFFF#32 then 4#3
  else 0#3

/-- Threshold bit `t1`: `cp[31:7] = 0` (R101). -/
def threshold1 (cp : Cp) : Bool := cp.extractLsb' 7 25 == 0#25

/-- Threshold bit `t2`: `cp[31:11] = 0` (R101). -/
def threshold2 (cp : Cp) : Bool := cp.extractLsb' 11 21 == 0#21

/-- Threshold bit `t3`: `cp[31:16] = 0` (R101). -/
def threshold3 (cp : Cp) : Bool := cp.extractLsb' 16 16 == 0#16

/-- Threshold bit `t4`: `cp[31:21] = 0`, and `cp[20] = 0` or `cp[19:16] = 0` (R101). -/
def threshold4 (cp : Cp) : Bool :=
  cp.extractLsb' 21 11 == 0#11 && (!cp.getLsbD 20 || cp.extractLsb' 16 4 == 0#4)

/-- The threshold tree: the priority chain over the four bits (R101). -/
def thresholdTree (cp : Cp) : Len :=
  if threshold1 cp then 1#3
  else if threshold2 cp then 2#3
  else if threshold3 cp then 3#3
  else if threshold4 cp then 4#3
  else 0#3

/-- The balanced tree R101 gives as an example: `t3` first, then `t1` or `t4`, then `t2` where needed. -/
def balancedTree (cp : Cp) : Len :=
  if threshold3 cp then
    if threshold1 cp then 1#3 else if threshold2 cp then 2#3 else 3#3
  else
    if threshold4 cp then 4#3 else 0#3

end Sys2Proof.Machine
end

