-- ==== Sys2Proof/Syntax.lean ====
section
/-! DEFINITION. The transactions a caller can issue (spec 30_encoding.md R72) and the cases they select, one
constructor of `Instr` per row of opcode_table.json (R64, R65).

The block has no instruction words (R3). What it decodes is the value on `cp_i` or, for a standalone
`byte_encoder`, the value on `len`. DEDUCED, log entry 2: an instruction of the model is a row of the table together
with the transaction that selected it, since the same row serves CLASSIFY, ENCODE and BENC (R65, R107). -/

namespace Sys2Proof

/-- Which transaction the caller makes of the block's outputs (R72). -/
inductive Transaction where
  /-- `CLASSIFY`: take `len_o`, leave DST alone (R107). -/
  | classify
  /-- `ENCODE`: take `len_o` and write the enabled lanes to DST (R150). -/
  | encode
  /-- `BENC`: a standalone `byte_encoder`: take `we` and the lanes, leave DST alone (R120). -/
  | benc
deriving DecidableEq, Repr

/-- A transaction with the values it places on the ports: its "encoding" (R72). -/
inductive Request where
  | classify (cp : Cp)
  | encode (cp : Cp)
  | benc (cp : Cp) (len : Len)
deriving DecidableEq, Repr

/-- One line of the caller's script. -/
inductive Stimulus where
  /-- The one requester issues a transaction (R51). -/
  | request (r : Request)
  /-- The test harness appends the last sequence to OUT (R162). -/
  | emit
  /-- Two callers drive `cp_i` at once, with these two values: outside the model (R52). -/
  | contended (a b : Cp)
deriving DecidableEq, Repr

/-- The instructions: the rows of opcode_table.json. `t` is the transaction, `cp` the code point on the port. -/
inductive Instr where
  /-- Row ENC1 (R122). -/
  | enc1 (t : Transaction) (cp : Cp)
  /-- Row ENC2 (R123). -/
  | enc2 (t : Transaction) (cp : Cp)
  /-- Row ENC3 (R124). -/
  | enc3 (t : Transaction) (cp : Cp)
  /-- Row ENC4 (R125). -/
  | enc4 (t : Transaction) (cp : Cp)
  /-- Row ENC0, the unclassifiable case (R126). -/
  | enc0 (t : Transaction) (cp : Cp)
  /-- Row LEN_RSVD: `len` 5, 6 or 7 at a standalone `byte_encoder` (R68, R121). -/
  | lenRsvd (cp : Cp) (len : Len)
deriving DecidableEq, Repr

/-- The code point an instruction was presented with. -/
def Instr.cp : Instr → Cp
  | .enc1 _ cp => cp
  | .enc2 _ cp => cp
  | .enc3 _ cp => cp
  | .enc4 _ cp => cp
  | .enc0 _ cp => cp
  | .lenRsvd cp _ => cp

/-- The transaction an instruction was presented by; the reserved codes only reach a standalone `byte_encoder`
(R65, R68). -/
def Instr.transaction : Instr → Transaction
  | .enc1 t _ => t
  | .enc2 t _ => t
  | .enc3 t _ => t
  | .enc4 t _ => t
  | .enc0 t _ => t
  | .lenRsvd _ _ => .benc

/-- The value on the `len` bus: `fields.len` of the row, or the reserved code presented (R65). -/
def Instr.len : Instr → Len
  | .enc1 _ _ => 1#3
  | .enc2 _ _ => 2#3
  | .enc3 _ _ => 3#3
  | .enc4 _ _ => 4#3
  | .enc0 _ _ => 0#3
  | .lenRsvd _ len => len

/-- The code point a request places on the port. -/
def Request.cp : Request → Cp
  | .classify cp => cp
  | .encode cp => cp
  | .benc cp _ => cp

/-- The transaction a request is. -/
def Request.transaction : Request → Transaction
  | .classify _ => .classify
  | .encode _ => .encode
  | .benc _ _ => .benc

end Sys2Proof
end

