-- ==== Sys2Proof/WellFormed.lean ====
section
/-! DEFINITION. When an instruction is one the hardware can select (spec 30_encoding.md R60, R64, R65, R68).

Through CLASSIFY and ENCODE a case is selected only by a code point in its range; through BENC the length is given
apart from the code point, so every code point will do (R131). A reserved code is 5, 6 or 7. -/

namespace Sys2Proof

/-- A case whose row has the range `[lo, hi]` may be presented with `cp` by transaction `t`. -/
def selectable (lo hi : Nat) (t : Transaction) (cp : Cp) : Bool :=
  match t with
  | .benc => true
  | .classify => decide (lo ≤ cp.toNat) && decide (cp.toNat ≤ hi)
  | .encode => decide (lo ≤ cp.toNat) && decide (cp.toNat ≤ hi)

/-- The well-formed instructions: each row's `range` (R60), and the reserved codes of LEN_RSVD (R68). -/
def Instr.wellFormed : Instr → Bool
  | .enc1 t cp => selectable 0x0 0x7F t cp
  | .enc2 t cp => selectable 0x80 0x7FF t cp
  | .enc3 t cp => selectable 0x800 0xFFFF t cp
  | .enc4 t cp => selectable 0x10000 0x10FFFF t cp
  | .enc0 t cp => selectable 0x110000 0xFFFFFFFF t cp
  | .lenRsvd _ len => decide (5 ≤ len.toNat)

end Sys2Proof
end

