-- ==== Sys2Proof/Decode.lean ====
section
/-! DEFINITION. From the values on the ports to the case they select, and back (spec 30_encoding.md R64, R65, R68;
opcode_table.json).

The decoder follows R64: in `utf8_encoder` the classifier's length selects the case, and in a standalone `byte_encoder`
the length presented does (R65). The table's `match` and `mask` pairs are written out beside it, as the second form R64
says agrees with the first. The decoder refuses no port value, because every one has a case (R71). What is refused, by
name, is a number that does not fit the port (95_test_vectors.md 1.2). -/

namespace Sys2Proof

/-- The five cases a code point or a length can select (R9, R64). -/
inductive Case where
  | enc1
  | enc2
  | enc3
  | enc4
  | enc0
deriving DecidableEq, Repr

/-- The reserved codes: the pairs of row LEN_RSVD, `0b101` under `0b111` and `0b110` under `0b110` (R65, R68). -/
def lenReserved (len : Len) : Bool :=
  len &&& 0b111#3 == 0b101#3 || len &&& 0b110#3 == 0b110#3

/-- The case a length that is not reserved selects: the row whose `fields.len` it is (R64, R65). -/
def caseOfLen (len : Len) : Case :=
  if len = 1#3 then .enc1
  else if len = 2#3 then .enc2
  else if len = 3#3 then .enc3
  else if len = 4#3 then .enc4
  else .enc0

/-- The case a code point selects in `utf8_encoder`: that of its length class (R64). -/
def selectCase (cp : Cp) : Case := caseOfLen (Machine.classify cp)

/-- A row of format CP32: the case and its alternative (match, mask) pairs. -/
structure Row where
  case : Case
  pairs : List (Cp × Cp)
deriving DecidableEq, Repr

/-- A value matches a pair when `cp & mask = match`, and a row when it matches one of its pairs (R64). -/
def Row.accepts (r : Row) (cp : Cp) : Bool :=
  r.pairs.any fun p => cp &&& p.2 == p.1

/-- The CP32 rows of opcode_table.json in `decode_order`. -/
def cp32Rows : List Row :=
  [ { case := .enc1, pairs := [(0x00000000, 0xFFFFFF80)] },
    { case := .enc2, pairs := [(0x00000000, 0xFFFFF800)] },
    { case := .enc3, pairs := [(0x00000000, 0xFFFF0000)] },
    { case := .enc4, pairs := [(0x00000000, 0xFFF00000), (0x00100000, 0xFFFF0000)] },
    { case := .enc0, pairs := [(0x00000000, 0x00000000)] } ]

/-- The first row that accepts `cp` (R64). The last row's mask is 0, so some row always does, and the value at the end
of the list is never used. -/
def firstAccepting : List Row → Cp → Case
  | [], _ => .enc0
  | r :: rs, cp => if r.accepts cp then r.case else firstAccepting rs cp

/-- The case of a code point by the table's pairs (R64). The decoder goes by `selectCase`; that the two agree is stated,
not assumed. -/
def tableCase (cp : Cp) : Case := firstAccepting cp32Rows cp

/-- The instruction of a case, presented by `t` with `cp`. -/
def Case.instr (c : Case) (t : Transaction) (cp : Cp) : Instr :=
  match c with
  | .enc1 => .enc1 t cp
  | .enc2 => .enc2 t cp
  | .enc3 => .enc3 t cp
  | .enc4 => .enc4 t cp
  | .enc0 => .enc0 t cp

/-- The decoder: `utf8_encoder` decodes the code point (R64), a standalone `byte_encoder` its length (R65). -/
def decode : Request → Instr
  | .classify cp => (selectCase cp).instr .classify cp
  | .encode cp => (selectCase cp).instr .encode cp
  | .benc cp len => if lenReserved len then .lenRsvd cp len else (caseOfLen len).instr .benc cp

/-- The request that a transaction makes with these values; only BENC presents a length (R72). -/
def Transaction.request (t : Transaction) (cp : Cp) (len : Len) : Request :=
  match t with
  | .classify => .classify cp
  | .encode => .encode cp
  | .benc => .benc cp len

/-- The encoder: what an instruction's transaction places on the ports (R72, `fields.len` of the row for BENC). -/
def encode (i : Instr) : Request :=
  match i with
  | .enc1 t cp => t.request cp 1#3
  | .enc2 t cp => t.request cp 2#3
  | .enc3 t cp => t.request cp 3#3
  | .enc4 t cp => t.request cp 4#3
  | .enc0 t cp => t.request cp 0#3
  | .lenRsvd cp len => .benc cp len

/-- Why a number is no value of a port. -/
inductive Reject where
  /-- It does not fit the 32-bit `cp_i` and cannot be presented (95_test_vectors.md 1.2). -/
  | cpDoesNotFit
  /-- It does not fit the 3-bit `len` (R72). -/
  | lenDoesNotFit
deriving DecidableEq, Repr

/-- A table word as a request (DESIGN CHOICE, log entry 10). A word of format LEN3 (3 bits, one byte when rounded up)
is the length at a standalone `byte_encoder`, whose code point the table gives no bits and which is then zero. A longer
word is of format CP32: the code point of an ENCODE. -/
def requestOfWord (nbits w : Nat) : Except Reject Request :=
  if nbits ≤ 8 then
    if w < 2 ^ 3 then .ok (.benc 0 (BitVec.ofNat 3 w)) else .error .lenDoesNotFit
  else
    if w < 2 ^ 32 then .ok (.encode (BitVec.ofNat 32 w)) else .error .cpDoesNotFit

/-- The instruction the decoder reads from a table word, or none where the word is no port value. -/
def decodeTableWord (nbits w : Nat) : Option Instr :=
  match requestOfWord nbits w with
  | .ok r => some (decode r)
  | .error _ => none

end Sys2Proof
end

