-- ==== Sys2Proof/Machine/Flags.lean ====
section
/-! DEFINITION. The block has no flags or condition codes (spec 10_state.md R22). What an operation reports beside its
bytes is its write enables (41_byte_encoder.md R121). -/

namespace Sys2Proof.Machine

/-- Write-enable generation, the table of R121 row by row; 5, 6 and 7 are as 0 (D7). -/
def wemask (len : Len) : We :=
  if len = 1#3 then 0b0001#4
  else if len = 2#3 then 0b0011#4
  else if len = 3#3 then 0b0111#4
  else if len = 4#3 then 0b1111#4
  else 0b0000#4

/-- Is lane `k` enabled: `we[k] = 1`. -/
def enabled (we : We) (k : Fin 4) : Bool := we.getLsbD k

end Sys2Proof.Machine
end

