-- ==== Sys2Proof/Machine/Operands.lean ====
section
/-! DEFINITION. The bit fields of a code point and the bytes made of them (spec 30_encoding.md R61, R63;
41_byte_encoder.md R127, R128, R132), and the packed view of four bytes (20_memory.md R43). -/

namespace Sys2Proof.Machine

/-- The shift-and-mask of the source: `(cp >> s) & mask`, as a byte (R63). -/
def shiftMask (cp : BitVec 32) (s : Nat) (mask : Byte) : Byte :=
  ((cp >>> s) &&& mask.setWidth 32).setWidth 8

/-- The continuation byte carrying `cp[s+5:s]`, the same under both LEAD_MASK values (R63, R132). -/
def contByte (cp : Cp) (s : Nat) : Byte :=
  0x80#8 ||| shiftMask cp s 0x3F#8

/-- The mask on the leading byte's payload, where `narrow` is the canonical one of the length (R127, R128). -/
def payloadMask (m : LeadMask) (narrow : Byte) : Byte :=
  match m with
  | .canonical => narrow
  | .wide6 => 0x3F#8

/-- `L2(cp)`, the leading byte of length 2 (R127, R128). -/
def lead2 (m : LeadMask) (cp : Cp) : Byte :=
  0xC0#8 ||| shiftMask cp 6 (payloadMask m 0x1F#8)

/-- `L3(cp)`, the leading byte of length 3 (R127, R128). -/
def lead3 (m : LeadMask) (cp : Cp) : Byte :=
  0xE0#8 ||| shiftMask cp 12 (payloadMask m 0x0F#8)

/-- `L4(cp)`, the leading byte of length 4 (R127, R128). -/
def lead4 (m : LeadMask) (cp : Cp) : Byte :=
  0xF0#8 ||| shiftMask cp 18 (payloadMask m 0x07#8)

/-- The one byte of length 1: `0b0 ++ cp[6:0]` (R122). -/
def asciiByte (cp : Cp) : Byte :=
  0#1 ++ cp.extractLsb' 0 7

/-- Four bytes as one word, byte k at bits 8k+7 to 8k: `bytes_o` of the lanes, and the little-endian view of DST
(R43). -/
def packWord (v : Vector Byte 4) : Word :=
  v[3] ++ v[2] ++ v[1] ++ v[0]

end Sys2Proof.Machine
end

