-- ==== Sys2Proof/Machine/ByteEncoder.lean ====
section
/-! DEFINITION. `byte_encoder`: the four datapaths and the mux (spec 41_byte_encoder.md). Idle lanes are 0x00, the
spec's own choice D5 (R126, R130). -/

namespace Sys2Proof.Machine

/-- Datapath `P1` (R122). -/
def pathEnc1 (cp : Cp) : Lanes := #v[asciiByte cp, 0#8, 0#8, 0#8]

/-- Datapath `P2` (R123). -/
def pathEnc2 (m : LeadMask) (cp : Cp) : Lanes := #v[lead2 m cp, contByte cp 0, 0#8, 0#8]

/-- Datapath `P3` (R124). -/
def pathEnc3 (m : LeadMask) (cp : Cp) : Lanes := #v[lead3 m cp, contByte cp 6, contByte cp 0, 0#8]

/-- Datapath `P4` (R125). -/
def pathEnc4 (m : LeadMask) (cp : Cp) : Lanes :=
  #v[lead4 m cp, contByte cp 12, contByte cp 6, contByte cp 0]

/-- No datapath: all lanes 0x00 (R126). -/
def idleLanes : Lanes := #v[0#8, 0#8, 0#8, 0#8]

/-- The 4-to-1 mux (R129): `len` selects one datapath, and 0, 5, 6, 7 none (R120, R126, R68). -/
def muxLanes (m : LeadMask) (cp : Cp) (len : Len) : Lanes :=
  if len = 1#3 then pathEnc1 cp
  else if len = 2#3 then pathEnc2 m cp
  else if len = 3#3 then pathEnc3 m cp
  else if len = 4#3 then pathEnc4 m cp
  else idleLanes

/-- `byte_encoder`: the write enables and the lanes of any `(cp, len)` (R120). -/
def byteEncoder (m : LeadMask) (cp : Cp) (len : Len) : We × Lanes :=
  (wemask len, muxLanes m cp len)

end Sys2Proof.Machine
end

