-- ==== Sys2Proof/Machine/State.lean ====
section
/-! DEFINITION. The state (spec 10_state.md R20 to R28).

The spec's model state is exactly `ModelState`: DST and nothing else (R27). The block itself holds none (R20), and it has
no program counter (R21), flags (R22), control registers (R23), exception, privilege or interrupt state
(60_exceptions.md R200 to R212). Everything else in `State` is outside the block, and there because a step of the host's
interface takes and answers a state alone: `Caller`, what the caller and the test harness hold between transactions (log
entries 1, 5, 6), and `cfg`, the build's parameter (log entry 3). The block's own operation is a function on `ModelState`
(`blockTransact`), so that no output of an earlier transaction can reach it (R27). -/

namespace Sys2Proof.Machine

/-- The outputs of one transaction, once settled (R24, R120, R241). `bytes_o` is a view of the lanes (R43). -/
inductive Observation where
  /-- The ports of `utf8_encoder` after CLASSIFY or ENCODE. -/
  | block (len : Len) (we : We) (lane : Lanes)
  /-- The outputs of a standalone `byte_encoder` after BENC; it has no length output (R25). -/
  | standalone (we : We) (lane : Lanes)
deriving DecidableEq, Repr

/-- The model state, exactly as R27 gives it: `State := { dst : Vector (BitVec 8) 4 }`. -/
structure ModelState where
  /-- `DST[0..3]`, the caller's buffer (R26). -/
  dst : Vector (BitVec 8) 4
deriving DecidableEq, Repr

/-- What the caller and the test harness hold, outside the block and no state of it (R21, R27, R162). -/
structure Caller where
  /-- The caller's transactions still to be issued, first one first (R21, R51, R72). -/
  script : List Stimulus
  /-- The outputs the caller took from the last transaction; none before the first one (R241). -/
  seen : Option Observation
  /-- The harness's `n`: the result of the last ENCODE (R162). -/
  lastCount : Len
  /-- The harness's byte log `OUT`, oldest byte first (R162). -/
  out : List Byte
deriving DecidableEq, Repr

/-- What a step of the host's interface takes and answers: the model state, the caller and harness around the block, and
the build. -/
structure State extends ModelState, Caller where
  /-- The build: LEAD_MASK (R6, R23). No step changes it. -/
  cfg : Config
deriving DecidableEq, Repr

/-- The block raises no exception, trap or fault (R200): there is no constructor, nobody raises one, and leaving it
empty is exact, neither safe nor unsafe. -/
inductive Fault where
deriving DecidableEq, Repr

/-- Why a step has no next state. -/
inductive Refusal where
  /-- An arm of `exec` whose instruction has no meaning yet; no arm uses it in this model. Safe. -/
  | notModelled (mnemonic : String)
  /-- Raised by `step` on a contended stimulus: two callers drive `cp_i` at once, which is outside the model (R52, the
  only refusal R200 allows). Safe (D10). -/
  | twoRequesters
deriving DecidableEq, Repr

/-- The machine after power-up, in a build `cfg`, over a buffer the caller provides with any contents (R28, R241).
There is no reset sequence (R240). -/
def State.powerUp (cfg : Config) (dst : Memory) : State :=
  { dst := dst, cfg := cfg, script := [], seen := none, lastCount := 0#3, out := [] }

/-- Power-up in the default build (R6). DESIGN CHOICE, unsafe, log entry 4: DST is all zero, where the spec says any
value (R28); `State.powerUp` has the general form. -/
def State.reset : State := State.powerUp .standard #v[0#8, 0#8, 0#8, 0#8]

end Sys2Proof.Machine
end

