-- ==== Sys2Proof/Machine/Ops.lean ====
section
/-! DEFINITION. The operations every meaning is made of: writing DST (spec 20_memory.md, 42_encode_operation.md R150,
R152), observing the outputs, one transaction of the block, the harness action EMIT (R162), and taking the next line of
the script.

There is no operation for taking an exception or returning from one: the block raises none (60_exceptions.md R200,
R204, R205). There is no register file (10_state.md R20) and the block never reads DST (R40). -/

namespace Sys2Proof.Machine

/-- The write enables an observation shows. -/
def Observation.we : Observation → We
  | .block _ we _ => we
  | .standalone we _ => we

/-- The lanes an observation shows. -/
def Observation.lane : Observation → Lanes
  | .block _ _ l => l
  | .standalone _ l => l

/-- `len_o` where the block has it; a standalone `byte_encoder` has no length output (R25). -/
def Observation.lenO : Observation → Option Len
  | .block n _ _ => some n
  | .standalone _ _ => none

/-- `bytes_o`, the packed copy of the block's lanes (R24, R43). -/
def Observation.bytesO : Observation → Option Word
  | .block _ _ l => some (packWord l)
  | .standalone _ _ => none

/-- `MemWrite(k, 1, v)`, the only memory primitive (R8). -/
def memWrite (k : Fin 4) (v : Byte) (d : Memory) : Memory := d.set k v

/-- One iteration of R150's loop: `if we[k] == 1 then MemWrite(k, 1, lane[k])`. -/
def writeLane (we : We) (lane : Lanes) (k : Fin 4) (d : Memory) : Memory :=
  if enabled we k then memWrite k lane[k] d else d

/-- The loop `for k in 0..3` of R150: the enabled lanes are written, the other bytes are not touched (R45, R152). One
step of the machine performs all of it (R46). -/
def writeLanes (we : We) (lane : Lanes) (d : Memory) : Memory :=
  writeLane we lane 3 (writeLane we lane 2 (writeLane we lane 1 (writeLane we lane 0 d)))

/-- DST as a list of cells, lowest address first: every address of the space exists and is listed (R40, R49). -/
def memCells (d : Memory) : List Host.Cell := [(0, d[0]), (1, d[1]), (2, d[2]), (3, d[3])]

/-- The canonical form of a list of cells for this address space: exactly the addresses 0, 1, 2, 3, rising. -/
def Memory.wf (c : List Host.Cell) : Bool := c.map (·.1) == [0, 1, 2, 3]

/-- Write the enabled lanes to DST: the only change of the model state there is (R41, R152). -/
def ModelState.store (m : ModelState) (we : We) (lane : Lanes) : ModelState :=
  { dst := writeLanes we lane m.dst }

/-- One transaction as the spec models it, a pure function of the build, the values on the ports and the model state
(R10, R27): what the outputs show, and DST afterwards. ENCODE alone commits the enabled lanes (R107, R120, R150). No
output of an earlier transaction is an argument of it. -/
def blockTransact (cfg : Config) (t : Transaction) (cp : Cp) (len : Len) (m : ModelState) :
    Observation × ModelState :=
  let o := byteEncoder cfg.leadMask cp len
  match t with
  | .classify => (.block len o.1 o.2, m)
  | .encode => (.block len o.1 o.2, m.store o.1 o.2)
  | .benc => (.standalone o.1 o.2, m)

/-- Put a model state in place. -/
def State.withModel (s : State) (m : ModelState) : State := { s with toModelState := m }

/-- Take the outputs of a transaction (R241). -/
def State.observe (s : State) (o : Observation) : State := { s with seen := some o }

/-- The harness keeps the result of an ENCODE for EMIT (R162); the other transactions give it nothing. -/
def State.recordCount (s : State) (t : Transaction) (n : Len) : State :=
  match t with
  | .classify => s
  | .encode => { s with lastCount := n }
  | .benc => s

/-- The harness appends bytes to OUT (R162). -/
def State.appendOut (s : State) (b : List Byte) : State := { s with out := s.out ++ b }

/-- The caller moves on in its script. -/
def State.advance (s : State) (rest : List Stimulus) : State := { s with script := rest }

/-- One transaction with the value `len` on the length bus: the block's transaction on the model state, whose outputs
the caller takes and whose count the harness keeps. -/
def State.transact (t : Transaction) (cp : Cp) (len : Len) (s : State) : State :=
  let r := blockTransact s.cfg t cp len s.toModelState
  ((s.withModel r.2).observe r.1).recordCount t len

/-- The bytes `DST[0..n-1]`. -/
def prefixBytes (n : Len) (d : Memory) : List Byte := d.toList.take n.toNat

/-- EMIT: append `DST[0..n-1]`, n the result of the last ENCODE; nothing when it was 0 (R162). DESIGN CHOICE, log entry
6: before any ENCODE the harness's n is 0. -/
def State.emit (s : State) : State := s.appendOut (prefixBytes s.lastCount s.dst)

/-- The script's next line, and the state with that line taken off (R51). -/
def State.takeStimulus (s : State) : Option (Stimulus × State) :=
  match s.script with
  | [] => none
  | x :: rest => some (x, s.advance rest)

end Sys2Proof.Machine
end

