-- ==== Sys2Proof/Machine/Cases.lean ====
section
/-! DEFINITION. The meanings of the table's rows (spec 41_byte_encoder.md R121 to R126). Each puts its row's length on
the length bus and makes the transaction; none can stop (60_exceptions.md R200).

On a row presented by CLASSIFY or ENCODE with a code point outside its range (which the decoder never gives) the row's
own datapath still applies (DESIGN CHOICE, log entry 13). -/

namespace Sys2Proof.Machine

/-- ENC1: length 1, datapath P1 (R122). -/
def execEnc1 (t : Transaction) (cp : Cp) (s : State) : Host.Outcome State Fault Refusal :=
  .next (s.transact t cp 1#3)

/-- ENC2: length 2, datapath P2 (R123). -/
def execEnc2 (t : Transaction) (cp : Cp) (s : State) : Host.Outcome State Fault Refusal :=
  .next (s.transact t cp 2#3)

/-- ENC3: length 3, datapath P3 (R124). -/
def execEnc3 (t : Transaction) (cp : Cp) (s : State) : Host.Outcome State Fault Refusal :=
  .next (s.transact t cp 3#3)

/-- ENC4: length 4, datapath P4 (R125). -/
def execEnc4 (t : Transaction) (cp : Cp) (s : State) : Host.Outcome State Fault Refusal :=
  .next (s.transact t cp 4#3)

/-- ENC0: unclassifiable; length 0, nothing written, the sentinel case and not a trap (R126, R201). -/
def execEnc0 (t : Transaction) (cp : Cp) (s : State) : Host.Outcome State Fault Refusal :=
  .next (s.transact t cp 0#3)

/-- LEN_RSVD: a reserved code at a standalone `byte_encoder`, which behaves as 0 (R68, R121). -/
def execLenRsvd (cp : Cp) (len : Len) (s : State) : Host.Outcome State Fault Refusal :=
  .next (s.transact .benc cp len)

end Sys2Proof.Machine
end

