-- ==== Sys2Proof/Machine/Dispatch.lean ====
section
/-! DEFINITION. One arm per row of opcode_table.json. -/

namespace Sys2Proof.Machine

def exec (i : Instr) (s : State) : Host.Outcome State Fault Refusal :=
  match i with
  | .enc1 t cp => Sys2Proof.Machine.execEnc1 t cp s
  | .enc2 t cp => Sys2Proof.Machine.execEnc2 t cp s
  | .enc3 t cp => Sys2Proof.Machine.execEnc3 t cp s
  | .enc4 t cp => Sys2Proof.Machine.execEnc4 t cp s
  | .enc0 t cp => Sys2Proof.Machine.execEnc0 t cp s
  | .lenRsvd cp len => Sys2Proof.Machine.execLenRsvd cp len s

end Sys2Proof.Machine
end

