-- ==== Sys2Proof/Machine/Step.lean ====
section
/-! DEFINITION. One step is one line of the caller's script (spec 00_scope.md R10, 20_memory.md R51). -/

namespace Sys2Proof.Machine

/-- The caller's next line: a transaction is decoded and run, EMIT is the harness's, two requesters at once are
refused (R52). With no line left nothing is issued and nothing changes (DESIGN CHOICE, log entry 7). -/
def step (s : State) : Host.Outcome State Fault Refusal :=
  match s.takeStimulus with
  | none => .next s
  | some (.request r, s') => exec (decode r) s'
  | some (.emit, s') => .next s'.emit
  | some (.contended _ _, _) => .refused .twoRequesters

/-- `s` with a request put first in the caller's script: the next step makes it. -/
def State.withRequest (s : State) (r : Request) : State := s.advance (.request r :: s.script)

/-- `s` with the request of a table word put first in the caller's script; `s` itself where the word is no port value
(log entry 10). -/
def State.withFetchWord (s : State) (nbits w : Nat) : State :=
  match requestOfWord nbits w with
  | .ok r => s.withRequest r
  | .error _ => s

end Sys2Proof.Machine
end

