-- ==== Sys2Proof/Machine/Utf8Encoder.lean ====
section
/-! DEFINITION. `utf8_encoder` as the composition of its sub-blocks, in the shape spec 00_scope.md R10 intends: the
classifier's output drives the byte encoder's `len` (10_state.md R25). The step reaches the same outputs through the
table's rows; that the two agree is stated, not assumed. -/

namespace Sys2Proof.Machine

/-- The combinational outputs for `cp_i`, as observed (R24, R25). -/
def utf8Outputs (m : LeadMask) (cp : Cp) : Observation :=
  let o := byteEncoder m cp (classify cp)
  .block (classify cp) o.1 o.2

/-- The ENCODE operation as a function of the code point and the previous DST (R10, R150). -/
def utf8Encode (m : LeadMask) (cp : Cp) (d : Memory) : Len × Memory :=
  let o := byteEncoder m cp (classify cp)
  (classify cp, writeLanes o.1 o.2 d)

/-- The UTF-8 sequence of a code point: its enabled lanes in order (R42, R62). -/
def utf8Bytes (m : LeadMask) (cp : Cp) : List Byte :=
  (byteEncoder m cp (classify cp)).2.toList.take (classify cp).toNat

end Sys2Proof.Machine
end

