-- ==== Sys2Proof/Safety.lean ====
section
/-! DEFINITION. What the claims speak of beside the machine itself: the reference decoder and the byte formats of the
spec, the length a leading byte announces, and the invariant every step keeps. Nothing here is part of the hardware:
decoding is a test oracle only (spec 42_encode_operation.md R156, 00_scope.md R5). -/

namespace Sys2Proof.Machine

/-- The bound `T_n` below which a code point needs at most n bytes (R106); no bound for an n that is not 1 to 4. -/
def lengthBound (n : Nat) : Nat :=
  if n = 1 then 0x80
  else if n = 2 then 0x800
  else if n = 3 then 0x10000
  else if n = 4 then 0x110000
  else 0

/-- How many of the four enables are 1 (R154). -/
def popcount (we : We) : Nat :=
  (enabled we 0).toNat + (enabled we 1).toNat + (enabled we 2).toNat + (enabled we 3).toNat

/-- The reference decoder `dec` over the first n bytes of a buffer (R156). For a length that is not 1 to 4 the spec
gives it no value, and neither does this. -/
def dec (n : Len) (b : Memory) : Option Cp :=
  if n = 1#3 then some ((b[0].extractLsb' 0 7).setWidth 32)
  else if n = 2#3 then some ((b[0].extractLsb' 0 5 ++ b[1].extractLsb' 0 6).setWidth 32)
  else if n = 3 then
    some ((b[0].extractLsb' 0 4 ++ b[1].extractLsb' 0 6 ++ b[2].extractLsb' 0 6).setWidth 32)
  else if n = 4 then
    some ((b[0].extractLsb' 0 3 ++ b[1].extractLsb' 0 6 ++ b[2].extractLsb' 0 6 ++ b[3].extractLsb' 0 6).setWidth 32)
  else none

/-- Format B1, `0xxxxxxx` (R61). -/
def isB1 (b : Byte) : Bool := b.extractLsb' 7 1 == 0b0#1

/-- Format B2L, `110xxxxx` (R61). -/
def isB2L (b : Byte) : Bool := b.extractLsb' 5 3 == 0b110#3

/-- Format B3L, `1110xxxx` (R61). -/
def isB3L (b : Byte) : Bool := b.extractLsb' 4 4 == 0b1110#4

/-- Format B4L, `11110xxx` (R61). -/
def isB4L (b : Byte) : Bool := b.extractLsb' 3 5 == 0b11110#5

/-- Format BC, `10xxxxxx` (R61). -/
def isBC (b : Byte) : Bool := b.extractLsb' 6 2 == 0b10#2

/-- The length a consumer reads from the prefix of byte 0 (R70); 0 for a byte that leads no sequence. -/
def lengthFromLead (b : Byte) : Len :=
  if isB1 b then 1#3 else if isB2L b then 2#3 else if isB3L b then 3#3 else if isB4L b then 4#3 else 0#3

/-- The bytes of a buffer have the sequence format of length n (R62). -/
def sequenceFormat (n : Len) (b : Memory) : Bool :=
  if n = 1#3 then isB1 b[0]
  else if n = 2#3 then isB2L b[0] && isBC b[1]
  else if n = 3#3 then isB3L b[0] && isBC b[1] && isBC b[2]
  else if n = 4#3 then isB4L b[0] && isBC b[1] && isBC b[2] && isBC b[3]
  else true

/-- An observation is one the hardware can show in a build: of `utf8_encoder` for some code point, or of a standalone
`byte_encoder` for some code point and length. -/
def Observation.Possible (m : LeadMask) : Observation → Prop
  | .block n we l => ∃ cp, Observation.block n we l = utf8Outputs m cp
  | .standalone we l => ∃ cp len, (we, l) = byteEncoder m cp len

/-- The little-endian word mask of a set of enables: 0xFF at byte k when `we[k] = 1`, else 0x00 (R43). -/
def byteMask (we : We) : Word :=
  packWord #v[if enabled we 0 then 0xFF#8 else 0x00#8, if enabled we 1 then 0xFF#8 else 0x00#8,
    if enabled we 2 then 0xFF#8 else 0x00#8, if enabled we 3 then 0xFF#8 else 0x00#8]

/-- The state after a transaction that showed `o`, left DST as `d` and the harness's count as `n`: all else is as it
was. -/
def State.after (s : State) (o : Observation) (d : Memory) (n : Len) : State :=
  { s with seen := some o, dst := d, lastCount := n }

/-- The model's invariant. The harness's count and the first bytes of DST are those of some one code point; OUT is the
concatenated UTF-8 of code points, each at most CP_MAX; and what was last observed is an output of the hardware. -/
structure State.Inv (s : State) : Prop where
  current : ∃ cp, s.lastCount = classify cp ∧ prefixBytes s.lastCount s.dst = utf8Bytes .canonical cp
  stream : ∃ cps : List Cp, (∀ c ∈ cps, c.toNat ≤ cpMax) ∧ s.out = cps.flatMap (utf8Bytes .canonical)
  shown : ∀ o, s.seen = some o → o.Possible s.cfg.leadMask

end Sys2Proof.Machine
end

