-- ==== Sys2Proof/Certificates/Slice0/Obligations.lean ====
section
/-! DEFINITION. The statements for the provers. Each docstring names the rule of spec/ it formalises, and says where a
clause rests on a choice of the spec's own (D<n>) or of the model's (a log entry). -/

open Sys2Proof Sys2Proof.Machine

/-! ### Encoding -/

/-- 30_encoding.md R64, R65, R68 and opcode_table.json: words written out bit by bit. Which transaction presents a table
word, in the two `decodeTableWord` clauses (ENCODE of a 32-bit word, BENC with code point 0 of an 8-bit one), is the
model's choice, log entry 10: the table does not say it. -/
def Obligations.SpecWordsDecodeToTheirRows : Prop :=
  decode (.encode 0b00000000000000000000000001000001#32) = .enc1 .encode 0x41 ∧
  decode (.encode 0b00000000000000000000000011101001#32) = .enc2 .encode 0xE9 ∧
  decode (.classify 0b00000000000000000100111000101101#32) = .enc3 .classify 0x4E2D ∧
  decode (.encode 0b00000000000000011111011000000000#32) = .enc4 .encode 0x1F600 ∧
  decode (.encode 0b00000000000100010000000000000000#32) = .enc0 .encode 0x110000 ∧
  decode (.benc 0b00000000000000000000100000000000#32 0b010#3) = .enc2 .benc 0x800 ∧
  decode (.benc 0b00000000000000000000000001000001#32 0b110#3) = .lenRsvd 0x41 6 ∧
  decodeTableWord 32 0b00000000000011111111111111111111 = some (.enc4 .encode 0xFFFFF) ∧
  decodeTableWord 8 0b101 = some (.lenRsvd 0 5)

/-- Decoding what an instruction places on the ports gives the instruction back: every row, every transaction, every
code point and every reserved length (R64, R65, R68, R72). -/
def Obligations.DecodeOfEncodeIsTheInstruction : Prop :=
  ∀ i : Instr, i.wellFormed = true → decode (encode i) = i

/-- Every value on the ports decodes to a well-formed instruction (R71), and no bit of it is lost. -/
def Obligations.EveryRequestDecodesWithoutLoss : Prop :=
  ∀ r : Request, (decode r).wellFormed = true ∧ encode (decode r) = r

/-- R64: the length class, the table's match and mask pairs in decode order, and the ranges of R60 select the same case
for every 32-bit value, so exactly one is selected. -/
def Obligations.TablePairsRangesAndLengthClassAgree : Prop :=
  ∀ cp : Cp,
    tableCase cp = selectCase cp ∧
    (selectCase cp = .enc1 ↔ cp.toNat ≤ 0x7F) ∧
    (selectCase cp = .enc2 ↔ 0x80 ≤ cp.toNat ∧ cp.toNat ≤ 0x7FF) ∧
    (selectCase cp = .enc3 ↔ 0x800 ≤ cp.toNat ∧ cp.toNat ≤ 0xFFFF) ∧
    (selectCase cp = .enc4 ↔ 0x10000 ≤ cp.toNat ∧ cp.toNat ≤ 0x10FFFF) ∧
    (selectCase cp = .enc0 ↔ 0x110000 ≤ cp.toNat)

/-- R65, R68 (the spec's decision D7): what each length selects at a standalone `byte_encoder`. -/
def Obligations.LengthCodesSelectTheirRows : Prop :=
  ∀ cp : Cp,
    decode (.benc cp 0#3) = .enc0 .benc cp ∧ decode (.benc cp 1#3) = .enc1 .benc cp ∧
    decode (.benc cp 2#3) = .enc2 .benc cp ∧ decode (.benc cp 3#3) = .enc3 .benc cp ∧
    decode (.benc cp 4#3) = .enc4 .benc cp ∧
    ∀ len : Len, 5 ≤ len.toNat → decode (.benc cp len) = .lenRsvd cp len

/-! ### length_classifier -/

/-- R100: the classification function, range by range. -/
def Obligations.ClassifyFollowsTheRangeTable : Prop :=
  ∀ cp : Cp,
    (cp.toNat ≤ 0x7F → classify cp = 1#3) ∧
    (0x7F < cp.toNat → cp.toNat ≤ 0x7FF → classify cp = 2#3) ∧
    (0x7FF < cp.toNat → cp.toNat ≤ 0xFFFF → classify cp = 3#3) ∧
    (0xFFFF < cp.toNat → cp.toNat ≤ 0x10FFFF → classify cp = 4#3) ∧
    (0x10FFFF < cp.toNat → classify cp = 0#3)

/-- R101: each threshold bit is the comparison it stands for, each implies the next, and the priority chain and the
balanced tree both compute R100's function. -/
def Obligations.ThresholdTreesComputeTheClassifier : Prop :=
  ∀ cp : Cp,
    (threshold1 cp = true ↔ cp.toNat ≤ 0x7F) ∧
    (threshold2 cp = true ↔ cp.toNat ≤ 0x7FF) ∧
    (threshold3 cp = true ↔ cp.toNat ≤ 0xFFFF) ∧
    (threshold4 cp = true ↔ cp.toNat ≤ 0x10FFFF) ∧
    (threshold1 cp = true → threshold2 cp = true) ∧
    (threshold2 cp = true → threshold3 cp = true) ∧
    (threshold3 cp = true → threshold4 cp = true) ∧
    thresholdTree cp = classify cp ∧ balancedTree cp = classify cp

/-- R106: on 0 to CP_MAX the class never decreases and is the least n whose bound T_n lies above the code point;
above CP_MAX it is 0. -/
def Obligations.ClassifyIsMonotoneAndLeast : Prop :=
  (∀ a b : Cp, a.toNat ≤ b.toNat → b.toNat ≤ cpMax → (classify a).toNat ≤ (classify b).toNat) ∧
  (∀ cp : Cp, cp.toNat ≤ cpMax →
    1 ≤ (classify cp).toNat ∧ (classify cp).toNat ≤ 4 ∧ cp.toNat < lengthBound (classify cp).toNat ∧
    ∀ n : Nat, 1 ≤ n → n ≤ 4 → cp.toNat < lengthBound n → (classify cp).toNat ≤ n) ∧
  (∀ cp : Cp, cpMax < cp.toNat → classify cp = 0#3)

/-- R105: the boundary table. -/
def Obligations.ClassifyBoundaryValues : Prop :=
  classify 0x00000000 = 1 ∧ classify 0x0000007F = 1 ∧ classify 0x00000080 = 2 ∧ classify 0x000007FF = 2 ∧
  classify 0x00000800 = 3 ∧ classify 0x0000D800 = 3 ∧ classify 0x0000DFFF = 3 ∧ classify 0x0000FFFF = 3 ∧
  classify 0x00010000 = 4 ∧ classify 0x0010FFFF = 4 ∧ classify 0x00110000 = 0 ∧ classify 0x001FFFFF = 0 ∧
  classify 0x00200000 = 0 ∧ classify 0x80000000 = 0 ∧ classify 0xFFFFFFFF = 0

/-- R107: CLASSIFY completes in every state, shows `classify(cp)` on `len_o`, and changes nothing but what is observed
(log entry 5) and the caller's place in its script (log entry 1). -/
def Obligations.ClassifyTransactionShowsTheClass : Prop :=
  ∀ (s : State) (cp : Cp) (rest : List Stimulus), s.script = .request (.classify cp) :: rest →
    step s = .next { s with script := rest, seen := some (utf8Outputs s.cfg.leadMask cp) } ∧
    (utf8Outputs s.cfg.leadMask cp).lenO = some (classify cp)

/-! ### byte_encoder -/

/-- R121: the write enables are a thermometer code; the rows for 5 to 7 are the spec's decision D7. -/
def Obligations.WriteEnablesAreAThermometer : Prop :=
  (∀ (len : Len) (k : Fin 4), enabled (wemask len) k = true ↔ k.val < len.toNat ∧ len.toNat ≤ 4) ∧
  wemask 0#3 = 0b0000#4 ∧ wemask 1#3 = 0b0001#4 ∧ wemask 2#3 = 0b0011#4 ∧ wemask 3#3 = 0b0111#4 ∧
  wemask 4#3 = 0b1111#4 ∧
  wemask 5#3 = 0b0000#4 ∧ wemask 6#3 = 0b0000#4 ∧ wemask 7#3 = 0b0000#4

/-- R122: row ENC1 completes in every state, under either LEAD_MASK, with the byte `0b0 ++ cp[6:0]`: through ENCODE and
CLASSIFY for every code point of the row's range, through BENC for every code point. In the range that byte equals the
code point. -/
def Obligations.Enc1GivesTheLowSevenBits : Prop :=
  ∀ (cp : Cp) (s : State),
    let lane : Lanes := #v[0b0#1 ++ cp.extractLsb' 0 7, 0x00#8, 0x00#8, 0x00#8]
    ((Instr.enc1 .encode cp).wellFormed = true →
      ∃ t, exec (.enc1 .encode cp) s = .next t ∧ t.seen = some (.block 1#3 0b0001#4 lane) ∧
        t.dst = #v[lane[0], s.dst[1], s.dst[2], s.dst[3]]) ∧
    ((Instr.enc1 .classify cp).wellFormed = true →
      ∃ t, exec (.enc1 .classify cp) s = .next t ∧ t.seen = some (.block 1#3 0b0001#4 lane) ∧ t.dst = s.dst) ∧
    (∃ t, exec (.enc1 .benc cp) s = .next t ∧ t.seen = some (.standalone 0b0001#4 lane) ∧ t.dst = s.dst) ∧
    (cp.toNat ≤ 0x7F → lane[0].toNat = cp.toNat)

/-- R123: row ENC2 completes in every state, of either build, with the lanes of P2: through ENCODE and CLASSIFY for
every code point of the row's range, through BENC for every code point. The leading byte is R127's slice under
CANONICAL; its WIDE6 slice, the spec's decision D6, is in `Obligations.WideMaskRowResults`. In the row's range
byte 0 is neither C0 nor C1, and no bit of the code point above those R123 names matters. -/
def Obligations.Enc2GivesTwoSlices : Prop :=
  ∀ (cp : Cp) (s : State),
    let lead : Byte := lead2 s.cfg.leadMask cp
    let lane : Lanes := #v[lead, 0b10#2 ++ cp.extractLsb' 0 6, 0x00#8, 0x00#8]
    ((Instr.enc2 .encode cp).wellFormed = true →
      ∃ t, exec (.enc2 .encode cp) s = .next t ∧ t.seen = some (.block 2#3 0b0011#4 lane) ∧
        t.dst = #v[lane[0], lane[1], s.dst[2], s.dst[3]]) ∧
    ((Instr.enc2 .classify cp).wellFormed = true →
      ∃ t, exec (.enc2 .classify cp) s = .next t ∧ t.seen = some (.block 2#3 0b0011#4 lane) ∧ t.dst = s.dst) ∧
    (∃ t, exec (.enc2 .benc cp) s = .next t ∧ t.seen = some (.standalone 0b0011#4 lane) ∧ t.dst = s.dst) ∧
    (s.cfg.leadMask = .canonical → lead = 0b110#3 ++ cp.extractLsb' 6 5) ∧
    (0x80 ≤ cp.toNat → cp.toNat ≤ 0x7FF → lead ≠ 0xC0#8 ∧ lead ≠ 0xC1#8) ∧
    (∀ c : Cp, c.extractLsb' 0 12 = cp.extractLsb' 0 12 → pathEnc2 .wide6 c = pathEnc2 .wide6 cp) ∧
    (∀ c : Cp, c.extractLsb' 0 11 = cp.extractLsb' 0 11 → pathEnc2 .canonical c = pathEnc2 .canonical cp)

/-- R124: row ENC3 completes in every state, of either build, with the lanes of P3: through ENCODE and CLASSIFY for
every code point of the row's range, through BENC for every code point. The leading byte is R127's slice under
CANONICAL; its WIDE6 slice, the spec's decision D6, is in `Obligations.WideMaskRowResults`. No bit of the code
point above those R124 names matters. -/
def Obligations.Enc3GivesThreeSlices : Prop :=
  ∀ (cp : Cp) (s : State),
    let lead : Byte := lead3 s.cfg.leadMask cp
    let lane : Lanes := #v[lead, 0b10#2 ++ cp.extractLsb' 6 6, 0b10#2 ++ cp.extractLsb' 0 6, 0x00#8]
    ((Instr.enc3 .encode cp).wellFormed = true →
      ∃ t, exec (.enc3 .encode cp) s = .next t ∧ t.seen = some (.block 3#3 0b0111#4 lane) ∧
        t.dst = #v[lane[0], lane[1], lane[2], s.dst[3]]) ∧
    ((Instr.enc3 .classify cp).wellFormed = true →
      ∃ t, exec (.enc3 .classify cp) s = .next t ∧ t.seen = some (.block 3#3 0b0111#4 lane) ∧ t.dst = s.dst) ∧
    (∃ t, exec (.enc3 .benc cp) s = .next t ∧ t.seen = some (.standalone 0b0111#4 lane) ∧ t.dst = s.dst) ∧
    (s.cfg.leadMask = .canonical → lead = 0b1110#4 ++ cp.extractLsb' 12 4) ∧
    (∀ c : Cp, c.extractLsb' 0 17 = cp.extractLsb' 0 17 → pathEnc3 .wide6 c = pathEnc3 .wide6 cp) ∧
    (∀ c : Cp, c.extractLsb' 0 16 = cp.extractLsb' 0 16 → pathEnc3 .canonical c = pathEnc3 .canonical cp)

/-- R125: row ENC4 completes in every state, of either build, with the lanes of P4: through ENCODE and CLASSIFY for
every code point of the row's range, through BENC for every code point. The leading byte is R127's slice under
CANONICAL; its WIDE6 slice, the spec's decision D6, is in `Obligations.WideMaskRowResults`. No bit of the code
point above those R125 names matters. -/
def Obligations.Enc4GivesFourSlices : Prop :=
  ∀ (cp : Cp) (s : State),
    let lead : Byte := lead4 s.cfg.leadMask cp
    let lane : Lanes :=
      #v[lead, 0b10#2 ++ cp.extractLsb' 12 6, 0b10#2 ++ cp.extractLsb' 6 6, 0b10#2 ++ cp.extractLsb' 0 6]
    ((Instr.enc4 .encode cp).wellFormed = true →
      ∃ t, exec (.enc4 .encode cp) s = .next t ∧ t.seen = some (.block 4#3 0b1111#4 lane) ∧ t.dst = lane) ∧
    ((Instr.enc4 .classify cp).wellFormed = true →
      ∃ t, exec (.enc4 .classify cp) s = .next t ∧ t.seen = some (.block 4#3 0b1111#4 lane) ∧ t.dst = s.dst) ∧
    (∃ t, exec (.enc4 .benc cp) s = .next t ∧ t.seen = some (.standalone 0b1111#4 lane) ∧ t.dst = s.dst) ∧
    (s.cfg.leadMask = .canonical → lead = 0b11110#5 ++ cp.extractLsb' 18 3) ∧
    (∀ c : Cp, c.extractLsb' 0 22 = cp.extractLsb' 0 22 → pathEnc4 .wide6 c = pathEnc4 .wide6 cp) ∧
    (∀ c : Cp, c.extractLsb' 0 21 = cp.extractLsb' 0 21 → pathEnc4 .canonical c = pathEnc4 .canonical cp)

/-- R123 to R125 with the leading byte of R128, the spec's own reading of the wide mask (D6, log entry 12): rows ENC2,
ENC3 and ENC4 complete in every state of a WIDE6 build, through every transaction. That ENCODE and CLASSIFY of a code
point outside the row's range do so, which no decode gives and where alone the leaked bit reaches DST, is the model's
choice, log entry 13. -/
def Obligations.WideMaskRowResults : Prop :=
  ∀ (cp : Cp) (s : State), s.cfg.leadMask = .wide6 →
    let b0 : Byte := 0b10#2 ++ cp.extractLsb' 0 6
    let b6 : Byte := 0b10#2 ++ cp.extractLsb' 6 6
    let b12 : Byte := 0b10#2 ++ cp.extractLsb' 12 6
    let l2 : Byte := 0b11#2 ++ cp.extractLsb' 6 6
    let l3 : Byte := 0b111#3 ++ cp.extractLsb' 12 5
    let l4 : Byte := 0b1111#4 ++ cp.extractLsb' 18 4
    exec (.enc2 .encode cp) s =
      .next (s.after (.block 2#3 0b0011#4 #v[l2, b0, 0#8, 0#8]) #v[l2, b0, s.dst[2], s.dst[3]] 2#3) ∧
    exec (.enc2 .classify cp) s = .next (s.after (.block 2#3 0b0011#4 #v[l2, b0, 0#8, 0#8]) s.dst s.lastCount) ∧
    exec (.enc2 .benc cp) s = .next (s.after (.standalone 0b0011#4 #v[l2, b0, 0#8, 0#8]) s.dst s.lastCount) ∧
    exec (.enc3 .encode cp) s =
      .next (s.after (.block 3#3 0b0111#4 #v[l3, b6, b0, 0#8]) #v[l3, b6, b0, s.dst[3]] 3#3) ∧
    exec (.enc3 .classify cp) s = .next (s.after (.block 3#3 0b0111#4 #v[l3, b6, b0, 0#8]) s.dst s.lastCount) ∧
    exec (.enc3 .benc cp) s = .next (s.after (.standalone 0b0111#4 #v[l3, b6, b0, 0#8]) s.dst s.lastCount) ∧
    exec (.enc4 .encode cp) s = .next (s.after (.block 4#3 0b1111#4 #v[l4, b12, b6, b0]) #v[l4, b12, b6, b0] 4#3) ∧
    exec (.enc4 .classify cp) s = .next (s.after (.block 4#3 0b1111#4 #v[l4, b12, b6, b0]) s.dst s.lastCount) ∧
    exec (.enc4 .benc cp) s = .next (s.after (.standalone 0b1111#4 #v[l4, b12, b6, b0]) s.dst s.lastCount)

/-- R126: row ENC0 completes in every state through every transaction, with no lane enabled and nothing written. The
lane values 0x00 are the spec's own choice D5. That ENCODE and CLASSIFY of a code point up to CP_MAX do so, which no
decode gives, is the model's choice, log entry 13. -/
def Obligations.Enc0WritesNothing : Prop :=
  ∀ (cp : Cp) (s : State),
    let lane : Lanes := #v[0x00#8, 0x00#8, 0x00#8, 0x00#8]
    exec (.enc0 .encode cp) s = .next (s.after (.block 0#3 0b0000#4 lane) s.dst 0#3) ∧
    exec (.enc0 .classify cp) s = .next (s.after (.block 0#3 0b0000#4 lane) s.dst s.lastCount) ∧
    exec (.enc0 .benc cp) s = .next (s.after (.standalone 0b0000#4 lane) s.dst s.lastCount)

/-- R68, R121 (the spec's decision D7): a reserved length completes in every state and behaves exactly as 0. -/
def Obligations.ReservedLengthsActAsZero : Prop :=
  ∀ (cp : Cp) (len : Len) (s : State), 5 ≤ len.toNat →
    exec (.lenRsvd cp len) s =
      .next (s.after (.standalone 0b0000#4 #v[0x00#8, 0x00#8, 0x00#8, 0x00#8]) s.dst s.lastCount) ∧
    exec (.lenRsvd cp len) s = exec (.enc0 .benc cp) s

/-- R120 as a transaction: BENC completes in every state with `wemask(len)` and the datapath the mux selects, for every
code point and every length, and writes nothing to DST. The row for 0, 5, 6, 7 is the spec's decision D7. -/
def Obligations.BencTransactionShowsTheByteEncoder : Prop :=
  ∀ (s : State) (cp : Cp) (len : Len) (rest : List Stimulus), s.script = .request (.benc cp len) :: rest →
    ∃ lane : Lanes,
      step s = .next { s with script := rest, seen := some (.standalone (wemask len) lane) } ∧
      (len = 1#3 → lane = pathEnc1 cp) ∧ (len = 2#3 → lane = pathEnc2 s.cfg.leadMask cp) ∧
      (len = 3#3 → lane = pathEnc3 s.cfg.leadMask cp) ∧ (len = 4#3 → lane = pathEnc4 s.cfg.leadMask cp) ∧
      (len = 0#3 ∨ 5 ≤ len.toNat → lane = #v[0x00#8, 0x00#8, 0x00#8, 0x00#8])

/-- R63, R127, R128: each shift-and-mask byte is its prefix above the slice of the code point. -/
def Obligations.ShiftAndMaskBytesAreSlices : Prop :=
  ∀ cp : Cp,
    lead2 .canonical cp = 0b110#3 ++ cp.extractLsb' 6 5 ∧
    lead3 .canonical cp = 0b1110#4 ++ cp.extractLsb' 12 4 ∧
    lead4 .canonical cp = 0b11110#5 ++ cp.extractLsb' 18 3 ∧
    lead2 .wide6 cp = 0b11#2 ++ cp.extractLsb' 6 6 ∧
    lead3 .wide6 cp = 0b111#3 ++ cp.extractLsb' 12 5 ∧
    lead4 .wide6 cp = 0b1111#4 ++ cp.extractLsb' 18 4 ∧
    contByte cp 0 = 0b10#2 ++ cp.extractLsb' 0 6 ∧
    contByte cp 6 = 0b10#2 ++ cp.extractLsb' 6 6 ∧
    contByte cp 12 = 0b10#2 ++ cp.extractLsb' 12 6

/-- R132: continuation bytes are `0x80 | ((cp >> s) & 0x3F)` and the byte of length 1 is `0b0 ++ cp[6:0]` under both
values, and LEAD_MASK affects only byte 0 of lengths 2, 3, 4. -/
def Obligations.LeadMaskTouchesOnlyLeadingBytes : Prop :=
  ∀ (m : LeadMask) (cp : BitVec 32),
    (∀ (len : Len) (k : Fin 4), ¬ (k = 0 ∧ (len = 2#3 ∨ len = 3#3 ∨ len = 4#3)) →
      (byteEncoder m cp len).2[k] = (byteEncoder .canonical cp len).2[k]) ∧
    (byteEncoder m cp 1#3).2[0] = 0b0#1 ++ cp.extractLsb' 0 7 ∧
    (∀ len : Len, 2 ≤ len.toNat → len.toNat ≤ 4 → ∀ k : Fin 4, 1 ≤ k.val → k.val < len.toNat →
      (byteEncoder m cp len).2[k] = (0x80#32 ||| ((cp >>> (6 * (len.toNat - 1 - k.val))) &&& 0x3F#32)).setWidth 8)

/-- R131, with the WIDE6 reading of D6: the two builds of a standalone `byte_encoder` differ exactly on the bit the wide
mask lets through. -/
def Obligations.MasksDifferExactlyOnTheLeakedBit : Prop :=
  ∀ (cp : Cp) (len : Len),
    byteEncoder .canonical cp len ≠ byteEncoder .wide6 cp len ↔
      (len = 2#3 ∧ cp.getLsbD 11 = true) ∨ (len = 3#3 ∧ cp.getLsbD 16 = true) ∨ (len = 4#3 ∧ cp.getLsbD 21 = true)

/-- R131: under CANONICAL every output of a standalone `byte_encoder` has the sequence format of its length (R62), even
when the length is not the code point's class. -/
def Obligations.CanonicalStandaloneKeepsTheFormat : Prop :=
  ∀ (cp : Cp) (len : Len), sequenceFormat len (byteEncoder .canonical cp len).2 = true

/-- R130 (the spec's choice D5): a lane that is not enabled carries 0x00, for every code point, length and build. -/
def Obligations.IdleLanesCarryZero : Prop :=
  ∀ (m : LeadMask) (cp : Cp) (len : Len) (k : Fin 4),
    enabled (byteEncoder m cp len).1 k = false → (byteEncoder m cp len).2[k] = 0x00#8

/-! ### ENCODE -/

/-- R150: ENCODE completes in every state: classify, pack, write the enabled lanes in the order of the loop, and show
the class as the result. `utf8Encode` is the same operation in the shape R10 intends. -/
def Obligations.EncodeClassifiesPacksAndWrites : Prop :=
  ∀ (s : State) (cp : Cp) (rest : List Stimulus), s.script = .request (.encode cp) :: rest →
    let n := classify cp
    let o := byteEncoder s.cfg.leadMask cp n
    let w (k : Fin 4) (d : Memory) : Memory := if enabled o.1 k then d.set k o.2[k] else d
    ∃ t, step s = .next t ∧ t.dst = w 3 (w 2 (w 1 (w 0 s.dst))) ∧ t.seen = some (.block n o.1 o.2) ∧
      utf8Encode s.cfg.leadMask cp s.dst = (n, t.dst)

/-- R152: after ENCODE each byte of DST is the lane where it was enabled and its old value elsewhere, all in one step. -/
def Obligations.EncodeUpdatesEnabledBytesOnly : Prop :=
  ∀ (s : State) (cp : Cp) (rest : List Stimulus), s.script = .request (.encode cp) :: rest →
    ∃ t o, step s = .next t ∧ t.seen = some o ∧
      ∀ k : Fin 4, t.dst[k] = if enabled o.we k then o.lane[k] else s.dst[k]

/-- R45: exactly `classify(cp)` bytes are written, from DST[0] up; the rest are left untouched. -/
def Obligations.EncodeWritesExactlyItsLength : Prop :=
  ∀ (s : State) (cp : Cp) (rest : List Stimulus), s.script = .request (.encode cp) :: rest →
    (classify cp).toNat ≤ 4 ∧
    ∃ t, step s = .next t ∧
      ∀ k : Fin 4,
        (k.val < (classify cp).toNat → t.dst[k] = (byteEncoder s.cfg.leadMask cp (classify cp)).2[k]) ∧
        ((classify cp).toNat ≤ k.val → t.dst[k] = s.dst[k])

/-- R41: only the ENCODE transaction writes DST. -/
def Obligations.OnlyEncodeWritesTheBuffer : Prop :=
  ∀ s t : State, step s = .next t → t.dst ≠ s.dst → ∃ cp rest, s.script = .request (.encode cp) :: rest

/-- R153: the classifier's result and ENCODE's byte count are the one `len_o`: CLASSIFY and ENCODE of one code point
from one state show the same length, and the sequence has that many bytes. -/
def Obligations.ClassAndByteCountAreOneOutput : Prop :=
  ∀ (s : State) (cp : Cp),
    (∃ t u o p, step (s.withRequest (.classify cp)) = .next t ∧ step (s.withRequest (.encode cp)) = .next u ∧
      t.seen = some o ∧ u.seen = some p ∧ o.lenO = some (classify cp) ∧ p.lenO = o.lenO) ∧
    (utf8Bytes s.cfg.leadMask cp).length = (classify cp).toNat

/-- R154, derived by the spec from R121 and R102: the number of enabled lanes is the length class, and the enabled
lanes are exactly the first that many. -/
def Obligations.EnabledLanesCountTheLength : Prop :=
  ∀ (m : LeadMask) (cp : Cp),
    popcount (utf8Outputs m cp).we = (classify cp).toNat ∧
    (utf8Outputs m cp).lenO = some (classify cp) ∧
    ∀ k : Fin 4, enabled (utf8Outputs m cp).we k = true ↔ k.val < (classify cp).toNat

/-- R155, which the spec derives: for every code point the outputs of `utf8_encoder` are the same under both masks. -/
def Obligations.LeadMaskIsInertAtTheTop : Prop :=
  ∀ cp : Cp, utf8Outputs .canonical cp = utf8Outputs .wide6 cp

/-- R155 as a property of whole runs: unless a standalone `byte_encoder` is used, two builds that start alike stay
alike, step for step, in everything but the parameter itself. -/
def Obligations.RunsDoNotRevealTheLeadMask : Prop :=
  ∀ (k : Nat) (m m' : LeadMask) (s t : State),
    (∀ cp len, .request (.benc cp len) ∉ s.script) →
    core.run k { s with cfg := { leadMask := m } } = .next t →
    core.run k { s with cfg := { leadMask := m' } } = .next { t with cfg := { leadMask := m' } }

/-- R156, which the spec derives: the reference decoder gives back every code point that ENCODE wrote. -/
def Obligations.EncodeRoundTrips : Prop :=
  ∀ (s : State) (cp : Cp) (rest : List Stimulus), s.script = .request (.encode cp) :: rest → cp.toNat ≤ cpMax →
    ∃ t, step s = .next t ∧ dec (classify cp) t.dst = some cp

/-- R201: above CP_MAX both transactions complete with `len_o` 0; ENCODE enables no lane and writes no byte. Nothing of
the condition is recorded: beside the observation (log entry 5), the caller's place in its script (log entry 1) and, for
ENCODE, the harness's copy of the result 0 (log entry 6), the state is as it was. -/
def Obligations.UnclassifiableGivesTheSentinel : Prop :=
  ∀ (s : State) (cp : Cp) (rest : List Stimulus), cpMax < cp.toNat →
    (s.script = .request (.classify cp) :: rest →
      ∃ o, step s = .next { s with script := rest, seen := some o } ∧ o.lenO = some 0#3) ∧
    (s.script = .request (.encode cp) :: rest →
      ∃ o, step s = .next { s with script := rest, seen := some o, lastCount := 0#3 } ∧ o.lenO = some 0#3 ∧
        o.we = 0b0000#4)

/-- R158, which the spec derives: ENCODE's result and the bytes it writes depend on the code point alone, whatever the
previous DST, the build and everything else in the two states. -/
def Obligations.EncodeDependsOnTheCodePointAlone : Prop :=
  ∀ (s s' : State) (cp : Cp),
    ∃ t t', step (s.withRequest (.encode cp)) = .next t ∧ step (s'.withRequest (.encode cp)) = .next t' ∧
      t.seen = t'.seen ∧ ∀ k : Fin 4, k.val < (classify cp).toNat → t.dst[k] = t'.dst[k]

/-- R159, which the spec derives from R122 to R126: the source's testable properties, in the stronger wording of C4. Per
range, the prefixes of the bytes written, and their number: the bytes of DST from the length up are untouched. -/
def Obligations.WrittenBytesHaveTheirPrefixes : Prop :=
  ∀ (s : State) (cp : Cp), ∃ t, step (s.withRequest (.encode cp)) = .next t ∧
    (cp.toNat ≤ 0x7F →
      t.dst[0].toNat = cp.toNat ∧ t.dst[1] = s.dst[1] ∧ t.dst[2] = s.dst[2] ∧ t.dst[3] = s.dst[3]) ∧
    (0x80 ≤ cp.toNat → cp.toNat ≤ 0x7FF →
      isB2L t.dst[0] = true ∧ isBC t.dst[1] = true ∧ t.dst[2] = s.dst[2] ∧ t.dst[3] = s.dst[3]) ∧
    (0x800 ≤ cp.toNat → cp.toNat ≤ 0xFFFF →
      isB3L t.dst[0] = true ∧ isBC t.dst[1] = true ∧ isBC t.dst[2] = true ∧ t.dst[3] = s.dst[3]) ∧
    (0x10000 ≤ cp.toNat → cp.toNat ≤ 0x10FFFF →
      isB4L t.dst[0] = true ∧ isBC t.dst[1] = true ∧ isBC t.dst[2] = true ∧ isBC t.dst[3] = true) ∧
    (0x110000 ≤ cp.toNat → t.dst = s.dst)

/-- R69, which the spec derives: the values the top level writes. No overlong form, nothing above CP_MAX. -/
def Obligations.WrittenByteRanges : Prop :=
  ∀ (s : State) (cp : Cp), ∃ t, step (s.withRequest (.encode cp)) = .next t ∧
    (classify cp = 1#3 → t.dst[0].toNat ≤ 0x7F) ∧
    (2 ≤ (classify cp).toNat → 0xC2 ≤ t.dst[0].toNat ∧ t.dst[0].toNat ≤ 0xF4) ∧
    (∀ k : Fin 4, 1 ≤ k.val → k.val < (classify cp).toNat → 0x80 ≤ t.dst[k].toNat ∧ t.dst[k].toNat ≤ 0xBF) ∧
    (classify cp ≠ 0#3 → t.dst[0] = 0xE0#8 → 0xA0 ≤ t.dst[1].toNat ∧ t.dst[1].toNat ≤ 0xBF) ∧
    (classify cp ≠ 0#3 → t.dst[0] = 0xF0#8 → 0x90 ≤ t.dst[1].toNat ∧ t.dst[1].toNat ≤ 0xBF) ∧
    (classify cp ≠ 0#3 → t.dst[0] = 0xF4#8 → 0x80 ≤ t.dst[1].toNat ∧ t.dst[1].toNat ≤ 0x8F)

/-- R70: a consumer that has only the bytes reads the length from byte 0. -/
def Obligations.LeadingByteAnnouncesTheLength : Prop :=
  ∀ (s : State) (cp : Cp), cp.toNat ≤ cpMax →
    ∃ t, step (s.withRequest (.encode cp)) = .next t ∧ lengthFromLead t.dst[0] = classify cp

/-- R67: a surrogate is not refused: it selects ENC3 like its neighbours, and its three bytes are ED, then A0 to BF, then
a continuation byte (0xD800 gives ED A0 80). -/
def Obligations.SurrogatesAreEncodedLikeTheirRange : Prop :=
  ∀ (s : State) (cp : Cp), 0xD800 ≤ cp.toNat → cp.toNat ≤ 0xDFFF →
    decode (.encode cp) = .enc3 .encode cp ∧
    ∃ t, step (s.withRequest (.encode cp)) = .next t ∧
      t.dst[0] = 0xED#8 ∧ 0xA0 ≤ t.dst[1].toNat ∧ t.dst[1].toNat ≤ 0xBF ∧ isBC t.dst[2] = true ∧
      t.dst[3] = s.dst[3] ∧ (cp = 0xD800#32 → t.dst[1] = 0xA0#8 ∧ t.dst[2] = 0x80#8)

/-- R42: byte j of the sequence is written to `DST[j]`, and the payload goes most significant chunk first: the leading
byte has the top bits, the last byte the least significant six (the only byte of length 1 all seven). -/
def Obligations.SequenceIsMostSignificantFirst : Prop :=
  ∀ (s : State) (cp : Cp), ∃ t, step (s.withRequest (.encode cp)) = .next t ∧
    (∀ k : Fin 4, k.val < (classify cp).toNat → (utf8Bytes s.cfg.leadMask cp)[k.val]? = some t.dst[k]) ∧
    (classify cp = 1#3 → t.dst[0].extractLsb' 0 7 = cp.extractLsb' 0 7) ∧
    (∀ k : Fin 4, 2 ≤ (classify cp).toNat → k.val + 1 = (classify cp).toNat →
      t.dst[k].extractLsb' 0 6 = cp.extractLsb' 0 6) ∧
    (classify cp = 2#3 → t.dst[0].extractLsb' 0 5 = cp.extractLsb' 6 5) ∧
    (classify cp = 3#3 → t.dst[0].extractLsb' 0 4 = cp.extractLsb' 12 4) ∧
    (classify cp = 4#3 → t.dst[0].extractLsb' 0 3 = cp.extractLsb' 18 3)

/-- R43 (the spec's packing D4): seen as one little-endian word, DST after ENCODE is the old word with the enabled bytes
of `bytes_o` put in. -/
def Obligations.PackedViewMergesTheEnabledBytes : Prop :=
  ∀ (s : State) (cp : Cp), ∃ t o b, step (s.withRequest (.encode cp)) = .next t ∧ t.seen = some o ∧
    o.bytesO = some b ∧ (∀ k : Fin 4, b.extractLsb' (8 * k.val) 8 = o.lane[k]) ∧
    packWord t.dst = (packWord s.dst &&& ~~~ byteMask o.we) ||| (b &&& byteMask o.we) ∧
    (cp = 0x1F600#32 → b = 0x80989FF0#32)

/-- R47, which the spec derives from R45 and R152: a second ENCODE of the same code point leaves DST, and with it the
whole state, as the first did. -/
def Obligations.EncodeIsIdempotent : Prop :=
  ∀ (s : State) (cp : Cp), ∃ t u, step (s.withRequest (.encode cp)) = .next t ∧
    step (t.withRequest (.encode cp)) = .next u ∧ u = t

/-- R51 (the spec's decision D10): after two ENCODEs in a row the later one's bytes stand where it wrote, the earlier
one's where only that wrote, and the old contents elsewhere. -/
def Obligations.LaterReadsSeeTheMostRecentEncode : Prop :=
  ∀ (s : State) (a b : Cp) (rest : List Stimulus),
    s.script = .request (.encode a) :: .request (.encode b) :: rest →
    ∃ t, core.run 2 s = .next t ∧ t.script = rest ∧
      ∀ k : Fin 4, t.dst[k] =
        if k.val < (classify b).toNat then (byteEncoder s.cfg.leadMask b (classify b)).2[k]
        else if k.val < (classify a).toNat then (byteEncoder s.cfg.leadMask a (classify a)).2[k]
        else s.dst[k]

/-! ### Frames -/

/-- The rows as CLASSIFY or BENC presents them: complete in every state, store nothing, and leave everything but the
observation as it was (R41, R104, R107, R120). That the ill-formed ones, which no decode gives, complete too is the
model's choice, log entry 13. -/
def Obligations.NonStoringRowsFrame : Prop :=
  ∀ (i : Instr) (s : State), i.transaction ≠ .encode →
    ∃ t, exec i s = .next t ∧ (∀ k : Fin 4, t.dst[k] = s.dst[k]) ∧ t.cfg = s.cfg ∧ t.script = s.script ∧
      t.lastCount = s.lastCount ∧ t.out = s.out

/-- The rows as ENCODE presents them: complete in every state; a byte of DST whose lane the row does not enable reads as
before (the addresses stored to are those `wemask` of the row's length enables, R121, R152), and beside the observation
and the harness's count (R162) nothing else changes. That a row with a code point outside its range, which no decode
gives, enables and counts by its own length is the model's choice, log entry 13. -/
def Obligations.StoringRowsFrame : Prop :=
  ∀ (i : Instr) (s : State), i.transaction = .encode →
    ∃ t, exec i s = .next t ∧ (∀ k : Fin 4, enabled (wemask i.len) k = false → t.dst[k] = s.dst[k]) ∧
      t.cfg = s.cfg ∧ t.script = s.script ∧ t.lastCount = i.len ∧ t.out = s.out

/-! ### The machine as a whole -/

/-- The model's own choice, log entry 13: every row completes with the byte encoder at the length the row carries, also
where no decode gives it (a code point outside the row's range). On well-formed rows this is R120 and R150. -/
def Obligations.RowsRunAtTheirOwnLength : Prop :=
  ∀ (i : Instr) (s : State),
    let o := byteEncoder s.cfg.leadMask i.cp i.len
    ∃ t, exec i s = .next t ∧
      (i.transaction = .encode → t.seen = some (.block i.len o.1 o.2) ∧
        ∀ k : Fin 4, t.dst[k] = if enabled o.1 k then o.2[k] else s.dst[k]) ∧
      (i.transaction = .classify → t.seen = some (.block i.len o.1 o.2) ∧ t.dst = s.dst) ∧
      (i.transaction = .benc → t.seen = some (.standalone o.1 o.2) ∧ t.dst = s.dst)

/-- R27, which the spec derives from R20 and R26: the model state is DST and nothing else. What an earlier transaction
showed, the harness's count and its log (log entries 5 and 6) never reach the model state, however long a run, nor the
outputs of a transaction: two runs over equal buffers, builds and scripts keep equal buffers, whatever those fields
hold. -/
def Obligations.OutputsAreNotState : Prop :=
  (∀ (k : Nat) (s s' t : State),
    s'.toModelState = s.toModelState → s'.cfg = s.cfg → s'.script = s.script → core.run k s = .next t →
    ∃ t', core.run k s' = .next t' ∧ t'.toModelState = t.toModelState ∧ t'.cfg = t.cfg ∧ t'.script = t.script) ∧
  (∀ (s s' : State) (r : Request), s'.cfg = s.cfg →
    ∃ t t', step (s.withRequest r) = .next t ∧ step (s'.withRequest r) = .next t' ∧ t'.seen = t.seen)

/-- A step makes the caller's next transaction: it is exec of the decoded instruction, with that line taken off the
script (R10, R51; the script is the model's own field, log entry 1). -/
def Obligations.StepRunsTheDecodedInstruction : Prop :=
  ∀ (s : State) (r : Request) (rest : List Stimulus), s.script = .request r :: rest →
    step s = exec (decode r) { s with script := rest }

/-- The model's own choice, log entry 7: with no line left in the script nothing is issued and nothing changes. -/
def Obligations.NothingIssuedNothingChanges : Prop :=
  ∀ s : State, s.script = [] → step s = .next s

/-- R200 with R52: no step faults, and the only refusal is that of two requesters driving `cp_i` at once, which is always
refused; every other step completes. -/
def Obligations.OnlyTwoRequestersAreRefused : Prop :=
  ∀ s : State,
    (∀ f, step s ≠ .fault f) ∧
    (∀ r, step s = .refused r ↔ r = .twoRequesters ∧ ∃ a b rest, s.script = .contended a b :: rest) ∧
    ((∀ a b rest, s.script ≠ .contended a b :: rest) → ∃ t, step s = .next t)

/-- R23 (the spec's decision D6): LEAD_MASK cannot change while the block operates. -/
def Obligations.NoRunChangesTheBuild : Prop :=
  ∀ (k : Nat) (s t : State), core.run k s = .next t → t.cfg = s.cfg

/-- R162 (the spec's decision D16): EMIT appends DST[0..n-1] of the last ENCODE, n its result, and changes nothing else;
after ENCODE that is the code point's sequence, nothing when n is 0. -/
def Obligations.EmitAppendsTheLastSequence : Prop :=
  (∀ (s : State) (rest : List Stimulus), s.script = .emit :: rest →
    step s = .next { s with script := rest, out := s.out ++ s.dst.toList.take s.lastCount.toNat }) ∧
  (∀ (s : State) (cp : Cp) (rest : List Stimulus), s.script = .request (.encode cp) :: .emit :: rest →
    ∃ t, core.run 2 s = .next t ∧ t.script = rest ∧ t.out = s.out ++ utf8Bytes s.cfg.leadMask cp)

/-- R51, R162: encoding and emitting any list of code points one after the other, from any state, appends their
sequences in order. -/
def Obligations.StreamIsTheSequencesInOrder : Prop :=
  ∀ (cps : List Cp) (s : State) (rest : List Stimulus),
    s.script = cps.flatMap (fun c => [.request (.encode c), .emit]) ++ rest →
    ∃ t, core.run (2 * cps.length) s = .next t ∧ t.script = rest ∧ t.cfg = s.cfg ∧
      t.out = s.out ++ cps.flatMap (utf8Bytes s.cfg.leadMask)

/-- R70 with R156, for streams: the bytes of a list of code points determine the list, under either mask. -/
def Obligations.StreamDeterminesItsCodePoints : Prop :=
  ∀ (m : LeadMask) (xs ys : List Cp), (∀ c ∈ xs, c.toNat ≤ cpMax) → (∀ c ∈ ys, c.toNat ≤ cpMax) →
    xs.flatMap (utf8Bytes m) = ys.flatMap (utf8Bytes m) → xs = ys

/-- The invariant `State.Inv`, kept by every step from every state that meets it, in either build: the harness's log is
always the UTF-8 of some code points, the buffer's current prefix is one sequence, and the ports show an output of the
hardware (R42, R152, R155, R162). -/
def Obligations.EveryStepKeepsTheInvariant : Prop :=
  ∀ s t : State, s.Inv → step s = .next t → t.Inv

/-- The invariant holds at power-up, in every build and over every buffer the caller provides (R28, R241), and so at
reset. -/
def Obligations.PowerUpMeetsTheInvariant : Prop :=
  (∀ (cfg : Config) (d : Memory), (State.powerUp cfg d).Inv) ∧ State.reset.Inv

/-- R28, R241 (the spec's decision D12): at power-up nothing has been observed, and DST is whatever the caller provides.
That `State.reset` takes zeros for DST and for the harness's count, and no script, is the model's choice (log entries 4,
6 and 1); its LEAD_MASK is the default of R6. -/
def Obligations.PowerUpObservesNothing : Prop :=
  (∀ (cfg : Config) (d : Memory),
    (State.powerUp cfg d).seen = none ∧ (State.powerUp cfg d).dst = d ∧ (State.powerUp cfg d).cfg = cfg) ∧
  State.reset = { dst := #v[0#8, 0#8, 0#8, 0#8], cfg := { leadMask := .canonical }, script := [], seen := none,
                  lastCount := 0#3, out := [] }

/-- The table word placed by `withFetchWord` is the next transaction (log entry 10): ENCODE of a 32-bit word, BENC of a
3-bit one; the state that runs it is the one given. -/
def Obligations.FetchWordIsTheNextTransaction : Prop :=
  ∀ (s : State) (nbits w : Nat),
    (8 < nbits → w < 2 ^ 32 →
      step (s.withFetchWord nbits w) = exec (decode (.encode (BitVec.ofNat 32 w))) s ∧
      decodeTableWord nbits w = some (decode (.encode (BitVec.ofNat 32 w)))) ∧
    (nbits ≤ 8 → w < 8 →
      step (s.withFetchWord nbits w) = exec (decode (.benc 0 (BitVec.ofNat 3 w))) s ∧
      decodeTableWord nbits w = some (decode (.benc 0 (BitVec.ofNat 3 w))))
end

