-- ==== Sys2Proof/Laws/Encoder.lean ====
section
/-! SUPPORT. The classifier, the write enables and the mux at each of their values. -/

namespace Sys2Proof.Machine

/-- Everything `classify` can answer, with the range it answers it on (R100). -/
theorem classify_cases (cp : Cp) :
    (cp.toNat ≤ 0x7F ∧ classify cp = 1#3) ∨
    (0x7F < cp.toNat ∧ cp.toNat ≤ 0x7FF ∧ classify cp = 2#3) ∨
    (0x7FF < cp.toNat ∧ cp.toNat ≤ 0xFFFF ∧ classify cp = 3#3) ∨
    (0xFFFF < cp.toNat ∧ cp.toNat ≤ 0x10FFFF ∧ classify cp = 4#3) ∨
    (0x10FFFF < cp.toNat ∧ classify cp = 0#3) := by
  simp only [classify, BitVec.le_def, BitVec.toNat_ofNat]
  split_ifs <;> simp <;> omega

/-- The classifier never answers a reserved code (R102). -/
theorem classify_le_four (cp : Cp) : (classify cp).toNat ≤ 4 := by
  rcases classify_cases cp with h | h | h | h | h <;> simp [h]

/-- A length is one of eight codes. -/
theorem len_cases (len : Len) :
    len = 0#3 ∨ len = 1#3 ∨ len = 2#3 ∨ len = 3#3 ∨ len = 4#3 ∨ len = 5#3 ∨ len = 6#3 ∨ len = 7#3 := by
  revert len; decide

@[simp] theorem wemask_zero : wemask 0#3 = 0b0000#4 := rfl
@[simp] theorem wemask_one : wemask 1#3 = 0b0001#4 := rfl
@[simp] theorem wemask_two : wemask 2#3 = 0b0011#4 := rfl
@[simp] theorem wemask_three : wemask 3#3 = 0b0111#4 := rfl
@[simp] theorem wemask_four : wemask 4#3 = 0b1111#4 := rfl

section
variable (m : LeadMask) (cp : Cp) (len : Len)

@[simp] theorem muxLanes_zero : muxLanes m cp 0#3 = idleLanes := rfl
@[simp] theorem muxLanes_one : muxLanes m cp 1#3 = pathEnc1 cp := rfl
@[simp] theorem muxLanes_two : muxLanes m cp 2#3 = pathEnc2 m cp := rfl
@[simp] theorem muxLanes_three : muxLanes m cp 3#3 = pathEnc3 m cp := rfl
@[simp] theorem muxLanes_four : muxLanes m cp 4#3 = pathEnc4 m cp := rfl

@[simp] theorem byteEncoder_we : (byteEncoder m cp len).1 = wemask len := rfl
@[simp] theorem byteEncoder_lane : (byteEncoder m cp len).2 = muxLanes m cp len := rfl

end

end Sys2Proof.Machine
end

