-- ==== Sys2Proof/Laws/Memory.lean ====
section
/-! SUPPORT. The laws of DST: a read after a write, what writing lanes does to each byte, and the canonical form of its
cells. -/

namespace Sys2Proof.Machine

/-- Reading a byte after a write: the byte written there, the old byte elsewhere. -/
theorem memWrite_read (d : Memory) (v : Byte) (j k : Fin 4) :
    (memWrite j v d)[k] = if j = k then v else d[k] := by
  fin_cases j <;> fin_cases k <;> simp [memWrite]

/-- Everything writing lanes does to one byte. -/
theorem writeLanes_read (we : We) (lane : Lanes) (d : Memory) (k : Fin 4) :
    (writeLanes we lane d)[k] = if enabled we k then lane[k] else d[k] := by
  fin_cases k <;> simp [writeLanes, writeLane, memWrite] <;> split_ifs <;> simp

/-- Four bytes are equal when each is. -/
theorem memory_ext (a b : Memory) (h : ∀ k : Fin 4, a[k] = b[k]) : a = b :=
  Vector.ext fun i hi => h ⟨i, hi⟩

/-- A buffer is the four bytes read from it. -/
theorem memory_eta (d : Memory) : #v[d[0], d[1], d[2], d[3]] = d := by
  apply memory_ext
  intro k
  fin_cases k <;> rfl

/-- Writing lanes, with each byte of the result written out. -/
theorem writeLanes_eq (we : We) (lane : Lanes) (d : Memory) :
    writeLanes we lane d =
      #v[if enabled we 0 then lane[0] else d[0], if enabled we 1 then lane[1] else d[1],
        if enabled we 2 then lane[2] else d[2], if enabled we 3 then lane[3] else d[3]] := by
  apply memory_ext
  intro k
  rw [writeLanes_read]
  fin_cases k <;> rfl

theorem writeLanes_none (lane : Lanes) (d : Memory) : writeLanes 0b0000#4 lane d = d := rfl

theorem writeLanes_one (lane : Lanes) (d : Memory) :
    writeLanes 0b0001#4 lane d = #v[lane[0], d[1], d[2], d[3]] := by
  rw [writeLanes_eq]; rfl

theorem writeLanes_two (lane : Lanes) (d : Memory) :
    writeLanes 0b0011#4 lane d = #v[lane[0], lane[1], d[2], d[3]] := by
  rw [writeLanes_eq]; rfl

theorem writeLanes_three (lane : Lanes) (d : Memory) :
    writeLanes 0b0111#4 lane d = #v[lane[0], lane[1], lane[2], d[3]] := by
  rw [writeLanes_eq]; rfl

theorem writeLanes_four (lane : Lanes) (d : Memory) : writeLanes 0b1111#4 lane d = lane := by
  apply memory_ext
  intro k
  rw [writeLanes_read]
  fin_cases k <;> rfl

/-- DST's cells are in canonical form, whatever it holds; so every memory operation keeps the form. -/
theorem memCells_wf (d : Memory) : Memory.wf (memCells d) = true := rfl

theorem memCells_wf_writeLanes (we : We) (lane : Lanes) (d : Memory) :
    Memory.wf (memCells (writeLanes we lane d)) = true := rfl

/-- Equal cells are equal buffers. -/
theorem memCells_injective (a b : Memory) (h : memCells a = memCells b) : a = b := by
  simp only [memCells, List.cons.injEq, Prod.mk.injEq, true_and, and_true] at h
  rw [← memory_eta a, ← memory_eta b, h.1, h.2.1, h.2.2.1, h.2.2.2]

end Sys2Proof.Machine
end

