-- ==== Sys2Proof/Laws/State.lean ====
section
/-! SUPPORT. One lemma per field per update of State, true by definition, so that no later proof unfolds an update. -/

namespace Sys2Proof.Machine

section
variable (s : State) (we : We) (lane : Lanes) (o : Observation) (n : Len) (b : List Byte) (l : List Stimulus)
variable (m : ModelState) (t : Transaction)

@[simp] theorem store_dst : (m.store we lane).dst = writeLanes we lane m.dst := rfl

@[simp] theorem withModel_model : (s.withModel m).toModelState = m := rfl
@[simp] theorem withModel_dst : (s.withModel m).dst = m.dst := rfl
@[simp] theorem withModel_cfg : (s.withModel m).cfg = s.cfg := rfl
@[simp] theorem withModel_script : (s.withModel m).script = s.script := rfl
@[simp] theorem withModel_seen : (s.withModel m).seen = s.seen := rfl
@[simp] theorem withModel_lastCount : (s.withModel m).lastCount = s.lastCount := rfl
@[simp] theorem withModel_out : (s.withModel m).out = s.out := rfl

@[simp] theorem observe_model : (s.observe o).toModelState = s.toModelState := rfl
@[simp] theorem observe_dst : (s.observe o).dst = s.dst := rfl
@[simp] theorem observe_cfg : (s.observe o).cfg = s.cfg := rfl
@[simp] theorem observe_script : (s.observe o).script = s.script := rfl
@[simp] theorem observe_seen : (s.observe o).seen = some o := rfl
@[simp] theorem observe_lastCount : (s.observe o).lastCount = s.lastCount := rfl
@[simp] theorem observe_out : (s.observe o).out = s.out := rfl

@[simp] theorem recordCount_model : (s.recordCount t n).toModelState = s.toModelState := by cases t <;> rfl
@[simp] theorem recordCount_dst : (s.recordCount t n).dst = s.dst := by cases t <;> rfl
@[simp] theorem recordCount_cfg : (s.recordCount t n).cfg = s.cfg := by cases t <;> rfl
@[simp] theorem recordCount_script : (s.recordCount t n).script = s.script := by cases t <;> rfl
@[simp] theorem recordCount_seen : (s.recordCount t n).seen = s.seen := by cases t <;> rfl
@[simp] theorem recordCount_out : (s.recordCount t n).out = s.out := by cases t <;> rfl
@[simp] theorem recordCount_encode : (s.recordCount .encode n).lastCount = n := rfl
@[simp] theorem recordCount_classify : s.recordCount .classify n = s := rfl
@[simp] theorem recordCount_benc : s.recordCount .benc n = s := rfl

@[simp] theorem appendOut_model : (s.appendOut b).toModelState = s.toModelState := rfl
@[simp] theorem appendOut_dst : (s.appendOut b).dst = s.dst := rfl
@[simp] theorem appendOut_cfg : (s.appendOut b).cfg = s.cfg := rfl
@[simp] theorem appendOut_script : (s.appendOut b).script = s.script := rfl
@[simp] theorem appendOut_seen : (s.appendOut b).seen = s.seen := rfl
@[simp] theorem appendOut_lastCount : (s.appendOut b).lastCount = s.lastCount := rfl
@[simp] theorem appendOut_out : (s.appendOut b).out = s.out ++ b := rfl

@[simp] theorem advance_model : (s.advance l).toModelState = s.toModelState := rfl
@[simp] theorem advance_dst : (s.advance l).dst = s.dst := rfl
@[simp] theorem advance_cfg : (s.advance l).cfg = s.cfg := rfl
@[simp] theorem advance_script : (s.advance l).script = l := rfl
@[simp] theorem advance_seen : (s.advance l).seen = s.seen := rfl
@[simp] theorem advance_lastCount : (s.advance l).lastCount = s.lastCount := rfl
@[simp] theorem advance_out : (s.advance l).out = s.out := rfl

@[simp] theorem advance_advance (l' : List Stimulus) : (s.advance l).advance l' = s.advance l' := rfl
@[simp] theorem advance_own : s.advance s.script = s := rfl

variable (d : Memory)

@[simp] theorem after_dst : (s.after o d n).dst = d := rfl
@[simp] theorem after_cfg : (s.after o d n).cfg = s.cfg := rfl
@[simp] theorem after_script : (s.after o d n).script = s.script := rfl
@[simp] theorem after_seen : (s.after o d n).seen = some o := rfl
@[simp] theorem after_lastCount : (s.after o d n).lastCount = n := rfl
@[simp] theorem after_out : (s.after o d n).out = s.out := rfl

variable (cfg : Config)

@[simp] theorem powerUp_dst : (State.powerUp cfg d).dst = d := rfl
@[simp] theorem powerUp_cfg : (State.powerUp cfg d).cfg = cfg := rfl
@[simp] theorem powerUp_script : (State.powerUp cfg d).script = [] := rfl
@[simp] theorem powerUp_seen : (State.powerUp cfg d).seen = none := rfl
@[simp] theorem powerUp_lastCount : (State.powerUp cfg d).lastCount = 0 := rfl
@[simp] theorem powerUp_out : (State.powerUp cfg d).out = [] := rfl

variable (r : Request)

@[simp] theorem withRequest_model : (s.withRequest r).toModelState = s.toModelState := rfl
@[simp] theorem withRequest_dst : (s.withRequest r).dst = s.dst := rfl
@[simp] theorem withRequest_cfg : (s.withRequest r).cfg = s.cfg := rfl
@[simp] theorem withRequest_script : (s.withRequest r).script = .request r :: s.script := rfl
@[simp] theorem withRequest_seen : (s.withRequest r).seen = s.seen := rfl
@[simp] theorem withRequest_lastCount : (s.withRequest r).lastCount = s.lastCount := rfl
@[simp] theorem withRequest_out : (s.withRequest r).out = s.out := rfl

end

end Sys2Proof.Machine
end

