-- ==== Sys2Proof/Laws/Ops.lean ====
section
/-! SUPPORT. What the shared operations can do, once each: a transaction, decoding a transaction and running it, and one
step of the machine. -/

namespace Sys2Proof.Machine

section
variable (s : State) (cp : Cp) (len : Len)

variable (cfg : Config) (m : ModelState)

/-- The block's CLASSIFY shows its outputs and leaves DST. -/
@[simp] theorem blockTransact_classify :
    blockTransact cfg .classify cp len m = (.block len (wemask len) (muxLanes cfg.leadMask cp len), m) := rfl

/-- The block's ENCODE shows its outputs and writes the enabled lanes. -/
@[simp] theorem blockTransact_encode :
    blockTransact cfg .encode cp len m =
      (.block len (wemask len) (muxLanes cfg.leadMask cp len),
        m.store (wemask len) (muxLanes cfg.leadMask cp len)) := rfl

/-- A standalone BENC shows its outputs and leaves DST. -/
@[simp] theorem blockTransact_benc :
    blockTransact cfg .benc cp len m = (.standalone (wemask len) (muxLanes cfg.leadMask cp len), m) := rfl

/-- CLASSIFY changes the observation alone. -/
theorem transact_classify :
    s.transact .classify cp len =
      s.after (.block len (wemask len) (muxLanes s.cfg.leadMask cp len)) s.dst s.lastCount := rfl

/-- ENCODE writes the enabled lanes and hands the harness its count. -/
theorem transact_encode :
    s.transact .encode cp len =
      s.after (.block len (wemask len) (muxLanes s.cfg.leadMask cp len))
        (writeLanes (wemask len) (muxLanes s.cfg.leadMask cp len) s.dst) len := rfl

/-- BENC changes the observation alone. -/
theorem transact_benc :
    s.transact .benc cp len =
      s.after (.standalone (wemask len) (muxLanes s.cfg.leadMask cp len)) s.dst s.lastCount := rfl

/-- Whatever the transaction, the model state afterwards is the block's, and the outputs are the block's (R27). -/
theorem transact_model (t : Transaction) :
    (s.transact t cp len).toModelState = (blockTransact s.cfg t cp len s.toModelState).2 := by
  simp [State.transact]

theorem transact_seen (t : Transaction) :
    (s.transact t cp len).seen = some (blockTransact s.cfg t cp len s.toModelState).1 := by
  simp [State.transact]

/-- The meaning of every row is one transaction with the row's length (R65). -/
theorem exec_transact (i : Instr) : exec i s = .next (s.transact i.transaction i.cp i.len) := by
  cases i <;> rfl

/-- The row a code point selects carries its length class. -/
theorem selectCase_len (t : Transaction) : ((selectCase cp).instr t cp).len = classify cp := by
  rcases classify_cases cp with h | h | h | h | h <;> simp [selectCase, h, caseOfLen, Case.instr, Instr.len]

/-- A case's instruction carries the transaction and the code point it was made with. -/
theorem instr_ports (c : Case) (t : Transaction) :
    (c.instr t cp).transaction = t ∧ (c.instr t cp).cp = cp := by
  cases c <;> exact ⟨rfl, rfl⟩

/-- CLASSIFY, decoded and run: the classifier drives the length bus (R25, R107). -/
theorem exec_decode_classify :
    exec (decode (.classify cp)) s = .next (s.transact .classify cp (classify cp)) := by
  rw [exec_transact]
  simp only [decode, selectCase_len, instr_ports]

/-- ENCODE, decoded and run: the classifier drives the length bus (R25, R150). -/
theorem exec_decode_encode :
    exec (decode (.encode cp)) s = .next (s.transact .encode cp (classify cp)) := by
  rw [exec_transact]
  simp only [decode, selectCase_len, instr_ports]

/-- BENC, decoded and run: the length is the one presented, reserved or not (R65, R120). -/
theorem exec_decode_benc : exec (decode (.benc cp len)) s = .next (s.transact .benc cp len) := by
  rcases len_cases len with h | h | h | h | h | h | h | h <;> subst h <;> rfl

end

/-- Everything a step that goes on can have done. -/
theorem step_next_cases {s t : State} (h : step s = .next t) :
    (s.script = [] ∧ t = s) ∨
    (∃ cp rest, s.script = .request (.classify cp) :: rest ∧
      t = (s.advance rest).transact .classify cp (classify cp)) ∨
    (∃ cp rest, s.script = .request (.encode cp) :: rest ∧
      t = (s.advance rest).transact .encode cp (classify cp)) ∨
    (∃ cp len rest, s.script = .request (.benc cp len) :: rest ∧
      t = (s.advance rest).transact .benc cp len) ∨
    (∃ rest, s.script = .emit :: rest ∧ t = (s.advance rest).emit) := by
  unfold step State.takeStimulus at h
  match hs : s.script with
  | [] => simp [hs] at h; exact .inl ⟨rfl, h.symm⟩
  | .request (.classify cp) :: rest =>
    simp only [hs, exec_decode_classify] at h
    exact .inr (.inl ⟨cp, rest, rfl, (Host.Outcome.next.inj h).symm⟩)
  | .request (.encode cp) :: rest =>
    simp only [hs, exec_decode_encode] at h
    exact .inr (.inr (.inl ⟨cp, rest, rfl, (Host.Outcome.next.inj h).symm⟩))
  | .request (.benc cp len) :: rest =>
    simp only [hs, exec_decode_benc] at h
    exact .inr (.inr (.inr (.inl ⟨cp, len, rest, rfl, (Host.Outcome.next.inj h).symm⟩)))
  | .emit :: rest =>
    simp only [hs] at h
    exact .inr (.inr (.inr (.inr ⟨rest, rfl, (Host.Outcome.next.inj h).symm⟩)))
  | .contended a b :: rest => simp [hs] at h

end Sys2Proof.Machine
end

