-- ==== Sys2Proof/Laws/PerInstr.lean ====
section
/-! SUPPORT. For every instruction: what it places on the ports is its own code point and its own transaction (spec
30_encoding.md R72). -/

namespace Sys2Proof.Laws.PortsKept

/-- Encoding an instruction keeps the code point and the transaction it was presented with. -/
def Statement (i : Instr) : Prop :=
  (encode i).cp = i.cp ∧ (encode i).transaction = i.transaction

theorem enc1 (t : Transaction) (cp : Cp) : Statement (.enc1 t cp) := by cases t <;> exact ⟨rfl, rfl⟩
theorem enc2 (t : Transaction) (cp : Cp) : Statement (.enc2 t cp) := by cases t <;> exact ⟨rfl, rfl⟩
theorem enc3 (t : Transaction) (cp : Cp) : Statement (.enc3 t cp) := by cases t <;> exact ⟨rfl, rfl⟩
theorem enc4 (t : Transaction) (cp : Cp) : Statement (.enc4 t cp) := by cases t <;> exact ⟨rfl, rfl⟩
theorem enc0 (t : Transaction) (cp : Cp) : Statement (.enc0 t cp) := by cases t <;> exact ⟨rfl, rfl⟩
theorem lenRsvd (cp : Cp) (len : Len) : Statement (.lenRsvd cp len) := ⟨rfl, rfl⟩

end Sys2Proof.Laws.PortsKept
end

