-- ==== Sys2Proof/Laws/Run.lean ====
section
/-! SUPPORT. Runs of several steps, in terms of `step`. -/

namespace Sys2Proof.Machine

theorem run_zero (s : State) : Host.Core.run core 0 s = .next s := rfl

/-- A run of one step more that goes on: its first step goes on, and so does the rest. -/
theorem run_succ_next (k : Nat) (s t : State) :
    Host.Core.run core (k + 1) s = .next t ↔ ∃ u, step s = .next u ∧ Host.Core.run core k u = .next t := by
  have h : core.step s = step s := rfl
  simp only [Host.Core.run, h]
  cases step s <;> simp

/-- Two runs one after the other are one run. -/
theorem run_add (j k : Nat) (s u t : State) (hj : Host.Core.run core j s = .next u)
    (hk : Host.Core.run core k u = .next t) : Host.Core.run core (j + k) s = .next t := by
  induction j generalizing s with
  | zero =>
    have h : s = u := Host.Outcome.next.inj hj
    rw [Nat.zero_add, h]
    exact hk
  | succ j ih =>
    obtain ⟨v, hv, hr⟩ := (run_succ_next j s u).1 hj
    rw [Nat.succ_add]
    exact (run_succ_next _ _ _).2 ⟨v, hv, ih v hr⟩

end Sys2Proof.Machine
end

