-- ==== Sys2Proof/Tests/Slice0.lean ====
section
/-! SUPPORT. Tests: ill-formed terms the check refuses, words the decoder reads, one or two steps per row against the
vectors of spec/95_test_vectors.md, and a witness for the hypotheses of each statement. Expected values come from the
spec, never from the model. -/

namespace Sys2Proof.Tests

open Sys2Proof Sys2Proof.Machine

/-- A default build over a buffer that holds 11 22 33 44, as 95 section 2.3 starts. -/
def start : State := { State.reset with dst := #v[0x11, 0x22, 0x33, 0x44] }

/-- The same in a WIDE6 build. -/
def startWide : State := { start with cfg := { leadMask := .wide6 } }

/-- The DST a step leaves, where it goes on. -/
def dstAfter (o : Host.Outcome State Fault Refusal) : Option Memory :=
  match o with
  | .next s => some s.dst
  | .fault _ => none
  | .refused _ => none

/-- What a step shows, where it goes on. -/
def seenAfter (o : Host.Outcome State Fault Refusal) : Option Observation :=
  match o with
  | .next s => s.seen
  | .fault _ => none
  | .refused _ => none

/-! ### Ill-formed terms, one for each check -/

theorem test_wf_enc1_above : (Instr.enc1 .encode 0x80).wellFormed = false := by decide
theorem test_wf_enc2_below : (Instr.enc2 .classify 0x7F).wellFormed = false := by decide
theorem test_wf_enc2_above : (Instr.enc2 .encode 0x800).wellFormed = false := by decide
theorem test_wf_enc3_below : (Instr.enc3 .encode 0x7FF).wellFormed = false := by decide
theorem test_wf_enc3_above : (Instr.enc3 .classify 0x10000).wellFormed = false := by decide
theorem test_wf_enc4_below : (Instr.enc4 .encode 0xFFFF).wellFormed = false := by decide
theorem test_wf_enc4_above : (Instr.enc4 .encode 0x110000).wellFormed = false := by decide
theorem test_wf_enc0_below : (Instr.enc0 .encode 0x10FFFF).wellFormed = false := by decide
theorem test_wf_lenRsvd_below : (Instr.lenRsvd 0x41 4).wellFormed = false := by decide

/-! ### Decoding, from words written out bit by bit (R60, R64, R65, R68) -/

theorem test_decode_enc1 :
    decode (.encode 0b00000000000000000000000001111111#32) = .enc1 .encode 0x7F := by decide
theorem test_decode_enc2 :
    decode (.encode 0b00000000000000000000000010000000#32) = .enc2 .encode 0x80 := by decide
theorem test_decode_enc3 :
    decode (.classify 0b00000000000000001101100000000000#32) = .enc3 .classify 0xD800 := by decide
theorem test_decode_enc4 :
    decode (.encode 0b00000000000100001111111111111111#32) = .enc4 .encode 0x10FFFF := by decide
theorem test_decode_enc0 :
    decode (.encode 0b11111111111111111111111111111111#32) = .enc0 .encode 0xFFFFFFFF := by decide
theorem test_decode_lenRsvd :
    decode (.benc 0b00000000000000011111011000000000#32 0b111#3) = .lenRsvd 0x1F600 7 := by decide
theorem test_decode_benc_decoupled :
    decode (.benc 0b00000000000000000000000001000001#32 0b100#3) = .enc4 .benc 0x41 := by decide
theorem test_word_too_wide_for_cp : requestOfWord 40 0x100000000 = .error .cpDoesNotFit := by decide
theorem test_word_too_wide_for_len : decodeTableWord 8 8 = none := by decide

/-! ### The rows, one step each (95 sections 2.2 to 2.5) -/

theorem test_enc1_keeps_the_rest :
    dstAfter (step (start.withRequest (.encode 0x41))) = some #v[0x41, 0x22, 0x33, 0x44] := by decide
theorem test_enc1_standalone_drops_bit_7 :
    seenAfter (exec (.enc1 .benc 0xE9) start) = some (.standalone 0b0001 #v[0x69, 0, 0, 0]) := by decide
theorem test_enc2_keeps_the_rest :
    dstAfter (step (start.withRequest (.encode 0xE9))) = some #v[0xC3, 0xA9, 0x33, 0x44] := by decide
theorem test_enc2_standalone_wide :
    seenAfter (step (startWide.withRequest (.benc 0xFFF 2))) =
      some (.standalone 0b0011 #v[0xFF, 0xBF, 0, 0]) := by decide
theorem test_enc3_keeps_the_rest :
    dstAfter (step (start.withRequest (.encode 0x4E2D))) = some #v[0xE4, 0xB8, 0xAD, 0x44] := by decide
theorem test_enc3_standalone_wide :
    seenAfter (step (startWide.withRequest (.benc 0x1F600 3))) =
      some (.standalone 0b0111 #v[0xFF, 0x98, 0x80, 0]) := by decide
theorem test_enc4_fills_the_buffer :
    dstAfter (step (start.withRequest (.encode 0x1F600))) = some #v[0xF0, 0x9F, 0x98, 0x80] := by decide
theorem test_enc4_standalone_wide :
    seenAfter (step (startWide.withRequest (.benc 0x3FFFFF 4))) =
      some (.standalone 0b1111 #v[0xFF, 0xBF, 0xBF, 0xBF]) := by decide
theorem test_enc0_writes_nothing :
    dstAfter (step (start.withRequest (.encode 0x110000))) = some #v[0x11, 0x22, 0x33, 0x44] := by decide
theorem test_enc0_classify :
    seenAfter (step (start.withRequest (.classify 0x80000000))) = some (.block 0 0b0000 #v[0, 0, 0, 0]) := by
  decide
theorem test_lenRsvd_six :
    seenAfter (step (start.withRequest (.benc 0x1F600 6))) = some (.standalone 0b0000 #v[0, 0, 0, 0]) := by
  decide
theorem test_lenRsvd_five :
    dstAfter (step (startWide.withRequest (.benc 0x41 5))) = some #v[0x11, 0x22, 0x33, 0x44] := by decide
theorem test_bytes_o : packWord #v[0xF0, 0x9F, 0x98, 0x80] = 0x80989FF0#32 := by decide
theorem test_fetch_word_runs_from_reset :
    dstAfter (step (State.reset.withFetchWord 32 0x7FF)) = some #v[0xDF, 0xBF, 0, 0] := by decide

/-! ### Witnesses: states and operands that meet the hypotheses of each statement -/

/-- `DecodeOfEncodeIsTheInstruction`, `Enc1GivesTheLowSevenBits` to `Enc4GivesFourSlices`: a well-formed instruction of
each row and transaction, at the edges of its range. -/
theorem witness_wellFormed :
    (Instr.enc1 .encode 0x7F).wellFormed = true ∧ (Instr.enc1 .classify 0x0).wellFormed = true ∧
    (Instr.enc2 .encode 0x80).wellFormed = true ∧ (Instr.enc2 .classify 0x7FF).wellFormed = true ∧
    (Instr.enc3 .encode 0x800).wellFormed = true ∧ (Instr.enc3 .classify 0xFFFF).wellFormed = true ∧
    (Instr.enc4 .encode 0x10000).wellFormed = true ∧ (Instr.enc4 .classify 0x10FFFF).wellFormed = true ∧
    (Instr.enc4 .benc 0x41).wellFormed = true ∧ (Instr.enc0 .encode 0x110000).wellFormed = true ∧
    (Instr.lenRsvd 0x41 5).wellFormed = true := by decide

/-- `ClassifyFollowsTheRangeTable`, `WrittenBytesHaveTheirPrefixes`, `WrittenByteRanges`,
`SequenceIsMostSignificantFirst`: the first and last code point of each range, each in that range only. -/
theorem witness_range_edges :
    (0x7F#32).toNat ≤ 0x7F ∧ 0x7F < (0x80#32).toNat ∧ (0x7FF#32).toNat ≤ 0x7FF ∧ 0x7FF < (0x800#32).toNat ∧
    (0xFFFF#32).toNat ≤ 0xFFFF ∧ 0xFFFF < (0x10000#32).toNat ∧ (0x10FFFF#32).toNat ≤ 0x10FFFF ∧
    0x10FFFF < (0x110000#32).toNat ∧ classify 0x7F = 1 ∧ classify 0x80 = 2 ∧ classify 0xFFFF = 3 ∧
    classify 0x10FFFF = 4 := by decide

/-- `LengthCodesSelectTheirRows`, `ReservedLengthsActAsZero`: the first and last reserved length. -/
theorem witness_reserved_lengths : 5 ≤ (5#3).toNat ∧ 5 ≤ (7#3).toNat := by decide

/-- `ThresholdTreesComputeTheClassifier`: each threshold at its last value, and not one above. -/
theorem witness_thresholds :
    threshold1 0x7F = true ∧ threshold1 0x80 = false ∧ threshold2 0x7FF = true ∧ threshold2 0x800 = false ∧
    threshold3 0xFFFF = true ∧ threshold3 0x10000 = false ∧ threshold4 0x10FFFF = true ∧
    threshold4 0x110000 = false := by decide

/-- `ClassifyIsMonotoneAndLeast`: an ordered pair up to CP_MAX, a bound at its edge, a code point above CP_MAX. -/
theorem witness_monotone :
    (0x7F#32).toNat ≤ (0x10FFFF#32).toNat ∧ (0x10FFFF#32).toNat ≤ cpMax ∧ (0x7FF#32).toNat < lengthBound 2 ∧
    cpMax < (0x110000#32).toNat := by decide

/-- `ClassifyTransactionShowsTheClass`, `UnclassifiableGivesTheSentinel`: CLASSIFY of the first unclassifiable value. -/
theorem witness_classify_script :
    (start.withRequest (.classify 0x110000)).script = .request (.classify 0x110000) :: [] ∧
    cpMax < (0x110000#32).toNat := by decide

/-- `EncodeClassifiesPacksAndWrites`, `EncodeUpdatesEnabledBytesOnly`, `EncodeWritesExactlyItsLength`,
`EncodeRoundTrips`, `StepRunsTheDecodedInstruction`: ENCODE of CP_MAX. -/
theorem witness_encode_script :
    (start.withRequest (.encode 0x10FFFF)).script = .request (.encode 0x10FFFF) :: [] ∧
    (0x10FFFF#32).toNat ≤ cpMax := by decide

/-- `EncodeWritesExactlyItsLength`, `EncodeDependsOnTheCodePointAlone`: an index the length takes in and one it leaves. -/
theorem witness_index_edges : 1 < (classify 0xE9).toNat ∧ (classify 0xE9).toNat ≤ 2 := by decide

/-- `UnclassifiableGivesTheSentinel`, its ENCODE clause. -/
theorem witness_unclassifiable_encode :
    (start.withRequest (.encode 0xFFFFFFFF)).script = .request (.encode 0xFFFFFFFF) :: [] ∧
    cpMax < (0xFFFFFFFF#32).toNat := by decide

/-- `BencTransactionShowsTheByteEncoder`: BENC, with a length of each clause. -/
theorem witness_benc_script :
    (start.withRequest (.benc 0x800 2)).script = .request (.benc 0x800 2) :: [] ∧
    (0#3 = 0#3 ∨ 5 ≤ (0#3).toNat) ∧ (5#3 = 0#3 ∨ 5 ≤ (5#3).toNat) ∧
    ¬ (4#3 = 0#3 ∨ 5 ≤ (4#3).toNat) := by decide

/-- `Enc2GivesTwoSlices` to `Enc4GivesFourSlices`, and `WideMaskRowResults`: a state of either build. -/
theorem witness_builds : start.cfg.leadMask = .canonical ∧ startWide.cfg.leadMask = .wide6 := by decide

/-- `Enc1GivesTheLowSevenBits`, `Enc2GivesTwoSlices`: the ranges of their last clauses. -/
theorem witness_row_ranges :
    (0x7F#32).toNat ≤ 0x7F ∧ 0x80 ≤ (0x80#32).toNat ∧ (0x80#32).toNat ≤ 0x7FF := by decide

/-- `LeadMaskTouchesOnlyLeadingBytes`: a lane the mask does not touch, and the last continuation byte of length 4. -/
theorem witness_untouched_lane :
    ¬ ((1 : Fin 4) = 0 ∧ (2#3 = 2#3 ∨ 2#3 = 3#3 ∨ 2#3 = 4#3)) ∧
    2 ≤ (4#3).toNat ∧ (4#3).toNat ≤ 4 ∧ 1 ≤ (3 : Fin 4).val ∧ (3 : Fin 4).val < (4#3).toNat := by decide

/-- `IdleLanesCarryZero`: a lane that is not enabled. -/
theorem witness_idle_lane : enabled (byteEncoder .canonical 0xE9 2).1 2 = false := by decide

/-- `OnlyEncodeWritesTheBuffer`: a step that goes on and changes DST. -/
theorem witness_buffer_changes :
    ∃ t, step (start.withRequest (.encode 0x41)) = .next t ∧ t.dst ≠ (start.withRequest (.encode 0x41)).dst :=
  ⟨_, rfl, by decide⟩

/-- `RunsDoNotRevealTheLeadMask`, `NoRunChangesTheBuild`: a script with no BENC and a run of it that goes on. -/
theorem witness_run :
    (∀ cp len, .request (.benc cp len) ∉ (start.withRequest (.encode 0x800)).script) ∧
    ∃ t, Host.Core.run core 1 { start.withRequest (.encode 0x800) with cfg := { leadMask := .canonical } } = .next t :=
  ⟨fun cp len h => by simp [start, State.reset] at h, _, rfl⟩

/-- `LeadingByteAnnouncesTheLength`: the smallest and the largest classifiable code point. -/
theorem witness_classifiable : (0x0#32).toNat ≤ cpMax ∧ (0x10FFFF#32).toNat ≤ cpMax := by decide

/-- `WrittenByteRanges`: code points whose leading bytes are E0, F0 and F4 (95 section 2.2). -/
theorem witness_leading_bytes :
    dstAfter (step (start.withRequest (.encode 0x800))) = some #v[0xE0, 0xA0, 0x80, 0x44] ∧
    dstAfter (step (start.withRequest (.encode 0x10000))) = some #v[0xF0, 0x90, 0x80, 0x80] ∧
    dstAfter (step (start.withRequest (.encode 0x10FFFF))) = some #v[0xF4, 0x8F, 0xBF, 0xBF] := by decide

/-- `SurrogatesAreEncodedLikeTheirRange`: the first and last surrogate. -/
theorem witness_surrogates :
    0xD800 ≤ (0xD800#32).toNat ∧ (0xD800#32).toNat ≤ 0xDFFF ∧ 0xD800 ≤ (0xDFFF#32).toNat ∧
    (0xDFFF#32).toNat ≤ 0xDFFF := by decide

/-- `LaterReadsSeeTheMostRecentEncode`: two ENCODEs, the later one shorter. -/
theorem witness_two_encodes :
    ((start.withRequest (.encode 0x41)).withRequest (.encode 0x1F600)).script =
      [.request (.encode 0x1F600), .request (.encode 0x41)] ∧
    (0 : Fin 4).val < (classify 0x41).toNat ∧ ¬ (1 : Fin 4).val < (classify 0x41).toNat ∧
    (1 : Fin 4).val < (classify 0x1F600).toNat := by decide

/-- `NonStoringRowsFrame`, `StoringRowsFrame`: a row of each kind and a byte its length does not enable. -/
theorem witness_frames :
    (Instr.lenRsvd 0x41 5).transaction ≠ .encode ∧ (Instr.enc3 .classify 0x800).transaction ≠ .encode ∧
    (Instr.enc3 .encode 0x800).transaction = .encode ∧ enabled (wemask (Instr.enc3 .encode 0x800).len) 3 = false := by
  decide

/-- `RowsRunAtTheirOwnLength`: a row of each transaction, one of them outside its range. -/
theorem witness_rows :
    (Instr.enc2 .encode 0x41).transaction = .encode ∧ (Instr.enc2 .encode 0x41).wellFormed = false ∧
    (Instr.enc4 .classify 0x10000).transaction = .classify ∧ (Instr.lenRsvd 0x41 7).transaction = .benc := by decide

/-- `OutputsAreNotState`: two states that differ in all the model holds of earlier transactions, and a run of two steps
from one of them that goes on. -/
theorem witness_other_outputs :
    let s := start.advance [.request (.encode 0xE9), .emit]
    let s' := { s with seen := some (utf8Outputs .canonical 0x1F600), lastCount := 4, out := [0x41] }
    s'.toModelState = s.toModelState ∧ s'.cfg = s.cfg ∧ s'.script = s.script ∧ s' ≠ s ∧
    ∃ t, Host.Core.run core 2 s = .next t :=
  ⟨rfl, rfl, rfl, by decide, _, rfl⟩

/-- `NothingIssuedNothingChanges`, `OnlyTwoRequestersAreRefused`: a state with no line left, and a contended one. -/
theorem witness_scripts :
    State.reset.script = [] ∧ (∀ a b rest, State.reset.script ≠ .contended a b :: rest) ∧
    step (start.advance [.contended 0x41 0x42]) = .refused .twoRequesters :=
  ⟨rfl, fun _ _ _ h => (List.cons_ne_nil _ _ h.symm).elim, rfl⟩

/-- `EmitAppendsTheLastSequence`: a script that starts with EMIT, and one where it follows ENCODE. -/
theorem witness_emit :
    (start.advance [.emit]).script = .emit :: [] ∧
    (start.advance [.request (.encode 0xE9), .emit]).script = .request (.encode 0xE9) :: .emit :: [] := by decide

/-- `StreamIsTheSequencesInOrder`: a script of that form, for two code points. -/
theorem witness_stream :
    (start.advance [.request (.encode 0x41), .emit, .request (.encode 0xE9), .emit]).script =
      [0x41#32, 0xE9#32].flatMap (fun c => [.request (.encode c), .emit]) ++ [] := by decide

/-- `StreamDeterminesItsCodePoints`: two lists that meet its hypotheses. -/
theorem witness_equal_streams :
    (∀ c ∈ [0x41#32, 0x10FFFF#32], c.toNat ≤ cpMax) ∧
    utf8Bytes .wide6 0x41#32 ++ utf8Bytes .wide6 0x10FFFF#32 = [0x41, 0xF4, 0x8F, 0xBF, 0xBF] :=
  ⟨by simp [cpMax], by decide⟩

/-- `EveryStepKeepsTheInvariant`: a state that meets the invariant and has a transaction to make. -/
theorem witness_invariant :
    (start.withRequest (.encode 0x41)).Inv ∧ ∃ t, step (start.withRequest (.encode 0x41)) = .next t :=
  ⟨{ current := ⟨0x110000, rfl, rfl⟩,
     stream := ⟨[], fun _ h => (List.not_mem_nil h).elim, rfl⟩,
     shown := fun _ h => by cases h }, _, rfl⟩

/-- `FetchWordIsTheNextTransaction`: a word of each format at its largest value. -/
theorem witness_fetch_words : 8 < 32 ∧ 0xFFFFFFFF < 2 ^ 32 ∧ 8 ≤ 8 ∧ 7 < 8 := by decide

end Sys2Proof.Tests
end

section
/-! Rules the proofs share: what issuing a request does, what ENCODE leaves in each byte of DST, and the payload bits of
each byte of a sequence. -/

namespace Sys2Proof.Machine

/-- The caller's next line is a request: it is decoded and run, with that line taken off the script (R10, R51). -/
theorem step_request {s : State} {r : Request} {rest : List Stimulus} (h : s.script = .request r :: rest) :
    step s = exec (decode r) (s.advance rest) := by
  simp only [step, State.takeStimulus, h]

/-- ENCODE as the caller's next line completes, in every state (R150). -/
theorem step_encode {s : State} {cp : Cp} {rest : List Stimulus} (h : s.script = .request (.encode cp) :: rest) :
    step s = .next ((s.advance rest).transact .encode cp (classify cp)) := by
  rw [step_request h, exec_decode_encode]

/-- ENCODE put first in the script completes, in every state (R150). -/
theorem step_withRequest_encode (s : State) (cp : Cp) :
    step (s.withRequest (.encode cp)) = .next (s.transact .encode cp (classify cp)) :=
  step_encode (withRequest_script s _)

/-- The write enables are a thermometer code; the reserved lengths enable nothing (R121). -/
theorem enabled_wemask (len : Len) (k : Fin 4) :
    enabled (wemask len) k = true ↔ k.val < len.toNat ∧ len.toNat ≤ 4 := by
  revert len k; decide

/-- The lanes a code point enables are the first `classify(cp)` (R154). -/
theorem enabled_wemask_classify (cp : Cp) (k : Fin 4) :
    enabled (wemask (classify cp)) k = true ↔ k.val < (classify cp).toNat := by
  simp [enabled_wemask, classify_le_four]

/-- Every byte of DST after ENCODE: a lane below the length, the old byte from there up (R45, R152). -/
theorem transact_encode_read (s : State) (cp : Cp) (k : Fin 4) :
    (s.transact .encode cp (classify cp)).dst[k] =
      if k.val < (classify cp).toNat then (muxLanes s.cfg.leadMask cp (classify cp))[k] else s.dst[k] := by
  rw [transact_encode, after_dst, writeLanes_read]
  simp only [enabled_wemask_classify]

/-- Below the length, DST after ENCODE holds the lanes. -/
theorem transact_encode_read_lane (s : State) (cp : Cp) (k : Fin 4) (hk : k.val < (classify cp).toNat) :
    (s.transact .encode cp (classify cp)).dst[k] = (muxLanes s.cfg.leadMask cp (classify cp))[k] := by
  rw [transact_encode_read, if_pos hk]

/-- DST[0] after ENCODE of a classifiable code point is the first lane of its class's datapath. -/
theorem transact_encode_read_lead (s : State) {cp : Cp} {len : Len} (h : classify cp = len) (hpos : 0 < len.toNat) :
    (s.transact .encode cp (classify cp)).dst[0] = (muxLanes s.cfg.leadMask cp len)[0] := by
  subst h
  exact transact_encode_read_lane s cp 0 hpos

/-- Below the length, the byte list of a code point is the lanes (R42). -/
theorem utf8Bytes_getElem? (m : LeadMask) (cp : Cp) (k : Fin 4) (hk : k.val < (classify cp).toNat) :
    (utf8Bytes m cp)[k.val]? = some (muxLanes m cp (classify cp))[k] := by
  simp [utf8Bytes, hk]

/-- Bit `i` of a shifted and masked code point (R63). -/
theorem getLsbD_shiftMask (cp : Cp) (s : Nat) (mask : Byte) (i : Nat) :
    (shiftMask cp s mask).getLsbD i = (cp.getLsbD (s + i) && mask.getLsbD i) := by
  by_cases hi : i < 8
  · simp [shiftMask, hi, Nat.lt_of_lt_of_le hi]
  · simp [shiftMask, hi, BitVec.getLsbD_of_ge mask i (Nat.not_lt.mp hi)]

/-- Where the tag leaves the low `w` bits free and the mask lets them through, a shift-and-mask byte carries there the
`w` bits of the code point from `s` up (R63). -/
theorem payload_tag_or_shiftMask (tag mask : Byte) (cp : Cp) (s w : Nat)
    (htag : tag.extractLsb' 0 w = 0#w) (hmask : mask.extractLsb' 0 w = BitVec.allOnes w) :
    (tag ||| shiftMask cp s mask).extractLsb' 0 w = cp.extractLsb' s w := by
  ext i hi
  have htagBit : tag.getLsbD i = false := by simpa [hi] using congrArg (·.getLsbD i) htag
  have hmaskBit : mask.getLsbD i = true := by simpa [hi] using congrArg (·.getLsbD i) hmask
  simp [BitVec.getElem_extractLsb', getLsbD_shiftMask, htagBit, hmaskBit]

/-- A continuation byte carries six bits of the code point. -/
theorem contByte_payload (cp : Cp) (s : Nat) : (contByte cp s).extractLsb' 0 6 = cp.extractLsb' s 6 :=
  payload_tag_or_shiftMask _ _ cp s 6 (by decide) (by decide)

/-- The leading byte of length 2 carries bits 10 to 6, under either mask. -/
theorem lead2_payload (m : LeadMask) (cp : Cp) : (lead2 m cp).extractLsb' 0 5 = cp.extractLsb' 6 5 :=
  payload_tag_or_shiftMask _ _ cp 6 5 (by decide) (by cases m <;> decide)

/-- The leading byte of length 3 carries bits 15 to 12, under either mask. -/
theorem lead3_payload (m : LeadMask) (cp : Cp) : (lead3 m cp).extractLsb' 0 4 = cp.extractLsb' 12 4 :=
  payload_tag_or_shiftMask _ _ cp 12 4 (by decide) (by cases m <;> decide)

/-- The leading byte of length 4 carries bits 20 to 18, under either mask. -/
theorem lead4_payload (m : LeadMask) (cp : Cp) : (lead4 m cp).extractLsb' 0 3 = cp.extractLsb' 18 3 :=
  payload_tag_or_shiftMask _ _ cp 18 3 (by decide) (by cases m <;> decide)

/-- The byte of length 1 carries bits 6 to 0 (R122). -/
theorem asciiByte_payload (cp : Cp) : (asciiByte cp).extractLsb' 0 7 = cp.extractLsb' 0 7 := by
  ext i hi
  rw [asciiByte, BitVec.getElem_extractLsb', BitVec.getElem_extractLsb', BitVec.getLsbD_append]
  simp [hi]

/-- The last lane of lengths 2, 3 and 4 is the continuation byte of bits 5 to 0 (R123 to R125). -/
theorem muxLanes_last (m : LeadMask) (cp : Cp) (len : Len) (k : Fin 4) (h : 2 ≤ len.toNat)
    (hk : k.val + 1 = len.toNat) : (muxLanes m cp len)[k] = contByte cp 0 := by
  have hle : len.toNat ≤ 4 := by omega
  have hlen : len = 2#3 ∨ len = 3#3 ∨ len = 4#3 := by
    clear hk
    revert len; decide
  rcases hlen with rfl | rfl | rfl
  · obtain rfl : k = 1 := Fin.ext (Nat.succ.inj hk)
    rfl
  · obtain rfl : k = 2 := Fin.ext (Nat.succ.inj hk)
    rfl
  · obtain rfl : k = 3 := Fin.ext (Nat.succ.inj hk)
    rfl

end Sys2Proof.Machine
end

section
/-! Settled here: the statements of 20_memory.md about which bytes of DST are written, by what, and in which order. -/

namespace Sys2Proof.Machine

/-- Settles O27, byte by byte from what ENCODE leaves in DST. -/
theorem encodeWritesExactlyItsLength : Obligations.EncodeWritesExactlyItsLength := by
  intro s cp rest hs
  refine ⟨classify_le_four cp, _, step_encode hs, fun k => ⟨fun hk => ?_, fun hk => ?_⟩⟩
  · rw [transact_encode_read_lane _ cp k hk, byteEncoder_lane, advance_cfg]
  · rw [transact_encode_read, if_neg (Nat.not_lt.mpr hk), advance_dst]

/-- Settles O28: of all that a step can do, every case but ENCODE leaves DST as it was. -/
theorem onlyEncodeWritesTheBuffer : Obligations.OnlyEncodeWritesTheBuffer := by
  intro s t hstep hdst
  rcases step_next_cases hstep with ⟨-, rfl⟩ | ⟨_, _, -, rfl⟩ | ⟨cp, rest, hs, -⟩ | ⟨_, _, _, -, rfl⟩ | ⟨_, -, rfl⟩
  case inr.inr.inl => exact ⟨cp, rest, hs⟩
  all_goals exact absurd rfl hdst

/-- Settles O40: each byte of DST below the length is a lane, and the lane is the datapath's byte of the class. -/
theorem sequenceIsMostSignificantFirst : Obligations.SequenceIsMostSignificantFirst := by
  intro s cp
  refine ⟨_, step_withRequest_encode s cp, fun k hk => ?_, fun h => ?_, fun k h hk => ?_, fun h => ?_, fun h => ?_,
    fun h => ?_⟩
  · rw [transact_encode_read_lane s cp k hk, utf8Bytes_getElem? _ _ k hk]
  · rw [transact_encode_read_lead s h (by decide), muxLanes_one]
    exact asciiByte_payload cp
  · rw [transact_encode_read_lane s cp k (by omega), muxLanes_last _ _ _ k h hk, contByte_payload]
  · rw [transact_encode_read_lead s h (by decide), muxLanes_two]
    exact lead2_payload _ cp
  · rw [transact_encode_read_lead s h (by decide), muxLanes_three]
    exact lead3_payload _ cp
  · rw [transact_encode_read_lead s h (by decide), muxLanes_four]
    exact lead4_payload _ cp

end Sys2Proof.Machine
end

section
/-! Settled here: the statements of 40_length_classifier.md about the classification function itself. -/

namespace Sys2Proof.Machine

/-- Settles O6: the range `classify_cases` puts a code point in gives one clause, and is outside the range of each
other clause. -/
theorem classifyFollowsTheRangeTable : Obligations.ClassifyFollowsTheRangeTable := by
  intro cp
  rcases classify_cases cp with ⟨hle, h⟩ | ⟨hlt, hle, h⟩ | ⟨hlt, hle, h⟩ | ⟨hlt, hle, h⟩ | ⟨hlt, h⟩
  · exact ⟨fun _ => h, by omega, by omega, by omega, by omega⟩
  · exact ⟨by omega, fun _ _ => h, by omega, by omega, by omega⟩
  · exact ⟨by omega, by omega, fun _ _ => h, by omega, by omega⟩
  · exact ⟨by omega, by omega, by omega, fun _ _ => h, by omega⟩
  · exact ⟨by omega, by omega, by omega, by omega, fun _ => h⟩

end Sys2Proof.Machine
end

section
/-! Rules the datapath proofs share: each shift-and-mask byte is a tag above a slice of the code point, the low bits of a
code point fix its slices, and what a row shows and writes through each transaction. -/

namespace Sys2Proof.Machine

/-- Where the tag is `p` above `w` zeros, and the mask lets through those `w` bits and otherwise at most bits the tag
already sets, a shift-and-mask byte is `p` above the `w` bits of the code point from `s` up (R63, R127, R128). -/
theorem tag_or_shiftMask_eq_append {k : Nat} (w : Nat) (p : BitVec k) (tag mask : Byte) (cp : Cp) (s : Nat)
    (htag : tag = (p ++ 0#w).setWidth 8) (hmask : mask &&& ~~~tag = (BitVec.allOnes w).setWidth 8) :
    tag ||| shiftMask cp s mask = (p ++ cp.extractLsb' s w).setWidth 8 := by
  apply BitVec.eq_of_getLsbD_eq
  intro i hi
  have hmaskBit : (mask.getLsbD i && !tag.getLsbD i) = decide (i < w) := by
    simpa [hi] using congrArg (·.getLsbD i) hmask
  rw [BitVec.getLsbD_or, getLsbD_shiftMask, BitVec.getLsbD_setWidth, BitVec.getLsbD_append, BitVec.getLsbD_extractLsb']
  by_cases hw : i < w
  · obtain ⟨hopen, hfree⟩ : mask.getLsbD i = true ∧ tag.getLsbD i = false := by simpa [hw] using hmaskBit
    rw [hopen, hfree]
    simp [hi, hw]
  · have hshut : tag.getLsbD i = false → mask.getLsbD i = false := by
      intro htop
      simpa [hw, htop] using hmaskBit
    have htagHigh : tag.getLsbD i = p.getLsbD (i - w) := by simp [htag, BitVec.getLsbD_append, hi, hw]
    rw [if_neg hw, ← htagHigh]
    cases htop : tag.getLsbD i
    · rw [hshut htop]
      simp
    · simp [hi]

/-- A continuation byte is `10` above six bits of the code point (R63). -/
theorem contByte_eq_append (cp : Cp) (s : Nat) : contByte cp s = 0b10#2 ++ cp.extractLsb' s 6 :=
  (tag_or_shiftMask_eq_append 6 0b10#2 _ _ cp s (by decide) (by decide)).trans (BitVec.setWidth_eq _)

/-- The leading byte of length 2 under CANONICAL (R127). -/
theorem lead2_canonical (cp : Cp) : lead2 .canonical cp = 0b110#3 ++ cp.extractLsb' 6 5 :=
  (tag_or_shiftMask_eq_append 5 0b110#3 _ _ cp 6 (by decide) (by decide)).trans (BitVec.setWidth_eq _)

/-- The leading byte of length 3 under CANONICAL (R127). -/
theorem lead3_canonical (cp : Cp) : lead3 .canonical cp = 0b1110#4 ++ cp.extractLsb' 12 4 :=
  (tag_or_shiftMask_eq_append 4 0b1110#4 _ _ cp 12 (by decide) (by decide)).trans (BitVec.setWidth_eq _)

/-- The leading byte of length 4 under CANONICAL (R127). -/
theorem lead4_canonical (cp : Cp) : lead4 .canonical cp = 0b11110#5 ++ cp.extractLsb' 18 3 :=
  (tag_or_shiftMask_eq_append 3 0b11110#5 _ _ cp 18 (by decide) (by decide)).trans (BitVec.setWidth_eq _)

/-- The leading byte of length 2 under WIDE6 (R128). -/
theorem lead2_wide6 (cp : Cp) : lead2 .wide6 cp = 0b11#2 ++ cp.extractLsb' 6 6 :=
  (tag_or_shiftMask_eq_append 6 0b11#2 _ _ cp 6 (by decide) (by decide)).trans (BitVec.setWidth_eq _)

/-- The leading byte of length 3 under WIDE6: cp[17] falls on a bit of the tag (R128). -/
theorem lead3_wide6 (cp : Cp) : lead3 .wide6 cp = 0b111#3 ++ cp.extractLsb' 12 5 :=
  (tag_or_shiftMask_eq_append 5 0b111#3 _ _ cp 12 (by decide) (by decide)).trans (BitVec.setWidth_eq _)

/-- The leading byte of length 4 under WIDE6: cp[23:22] fall on bits of the tag (R128). -/
theorem lead4_wide6 (cp : Cp) : lead4 .wide6 cp = 0b1111#4 ++ cp.extractLsb' 18 4 :=
  (tag_or_shiftMask_eq_append 4 0b1111#4 _ _ cp 18 (by decide) (by decide)).trans (BitVec.setWidth_eq _)

/-- The source's expression for a continuation byte, over 32 bits (R132). -/
theorem contByte_eq_setWidth (cp : Cp) (s : Nat) :
    contByte cp s = (0x80#32 ||| ((cp >>> s) &&& 0x3F#32)).setWidth 8 :=
  (BitVec.setWidth_or (x := 0x80#32)).symm

/-- Two code points alike in their low `n` bits are alike in every slice of those bits. -/
theorem slice_eq_of_low_eq {c cp : Cp} {n s w : Nat} (h : c.extractLsb' 0 n = cp.extractLsb' 0 n) (hsw : s + w ≤ n) :
    c.extractLsb' s w = cp.extractLsb' s w := by
  ext i hi
  have hbit : s + i < n := by omega
  simpa [hbit] using congrArg (·.getLsbD (s + i)) h

/-- In the range of ENC2 the payload of the leading byte is at least 2, so no overlong lead is written (R69, R123). -/
theorem lead2_ne_overlong (m : LeadMask) {cp : Cp} (hlo : 0x80 ≤ cp.toNat) (hhi : cp.toNat ≤ 0x7FF) :
    lead2 m cp ≠ 0xC0#8 ∧ lead2 m cp ≠ 0xC1#8 := by
  have hpay : ((lead2 m cp).extractLsb' 0 5).toNat = cp.toNat / 64 := by
    rw [lead2_payload, BitVec.extractLsb'_toNat, Nat.shiftRight_eq_div_pow]
    omega
  constructor
  · intro h
    have hzero : cp.toNat / 64 = 0 := by rw [← hpay, h]; rfl
    omega
  · intro h
    have hone : cp.toNat / 64 = 1 := by rw [← hpay, h]; rfl
    omega

/-- In the range of ENC1 the one byte is the code point (R122). -/
theorem asciiByte_toNat {cp : Cp} (h : cp.toNat ≤ 0x7F) : (asciiByte cp).toNat = cp.toNat := by
  have hfit : cp.toNat % 2 ^ 7 = cp.toNat := Nat.mod_eq_of_lt (by omega)
  rw [asciiByte, BitVec.toNat_append, BitVec.extractLsb'_toNat, Nat.shiftRight_zero, hfit]
  exact Nat.zero_or _

/-- The lengths whose datapath has a leading byte. -/
theorem lead_len_cases {len : Len} (hlo : 2 ≤ len.toNat) (hhi : len.toNat ≤ 4) :
    len = 2#3 ∨ len = 3#3 ∨ len = 4#3 := by
  revert len; decide

/-- Below the length, every lane but the first is the continuation byte of its six bits (R123 to R125). -/
theorem muxLanes_continuation (m : LeadMask) (cp : Cp) (len : Len) (k : Fin 4) (hlen : len.toNat ≤ 4)
    (hk : 1 ≤ k.val) (hklen : k.val < len.toNat) :
    (muxLanes m cp len)[k] = contByte cp (6 * (len.toNat - 1 - k.val)) := by
  rcases lead_len_cases (by omega) hlen with rfl | rfl | rfl
  · change k.val < 2 at hklen
    obtain rfl : k = 1 := by omega
    rfl
  · change k.val < 3 at hklen
    obtain rfl | rfl : k = 1 ∨ k = 2 := by omega
    all_goals rfl
  · obtain rfl | rfl | rfl : k = 1 ∨ k = 2 ∨ k = 3 := by omega
    all_goals rfl

/-- Only the first lane of lengths 2, 3 and 4 depends on the mask (R132). -/
theorem muxLanes_eq_canonical (m : LeadMask) (cp : Cp) (len : Len) (k : Fin 4)
    (h : ¬ (k = 0 ∧ (len = 2#3 ∨ len = 3#3 ∨ len = 4#3))) :
    (muxLanes m cp len)[k] = (muxLanes .canonical cp len)[k] := by
  by_cases hlen : len = 2#3 ∨ len = 3#3 ∨ len = 4#3
  · have hk : k = 1 ∨ k = 2 ∨ k = 3 := by
      have hne : k ≠ 0 := fun hk => h ⟨hk, hlen⟩
      omega
    rcases hlen with rfl | rfl | rfl <;> rcases hk with rfl | rfl | rfl <;> rfl
  · obtain ⟨h2, h3, h4⟩ : len ≠ 2#3 ∧ len ≠ 3#3 ∧ len ≠ 4#3 := by simpa [not_or] using hlen
    simp only [muxLanes, if_neg h2, if_neg h3, if_neg h4]

section
variable {i : Instr} {s : State} {we : We} {lane : Lanes}

/-- A row presented by ENCODE completes, shows its enables and lanes, and writes the enabled lanes (R120, R150). -/
theorem exec_encode_completes {d : Memory} (hi : i.transaction = .encode) (hwe : wemask i.len = we)
    (hlane : muxLanes s.cfg.leadMask i.cp i.len = lane) (hd : writeLanes we lane s.dst = d) :
    ∃ t, exec i s = .next t ∧ t.seen = some (.block i.len we lane) ∧ t.dst = d := by
  subst hwe hlane hd
  exact ⟨_, exec_transact s i, by rw [hi, transact_encode, after_seen], by rw [hi, transact_encode, after_dst]⟩

/-- A row presented by CLASSIFY completes, shows its enables and lanes, and writes nothing (R107, R120). -/
theorem exec_classify_completes (hi : i.transaction = .classify) (hwe : wemask i.len = we)
    (hlane : muxLanes s.cfg.leadMask i.cp i.len = lane) :
    ∃ t, exec i s = .next t ∧ t.seen = some (.block i.len we lane) ∧ t.dst = s.dst := by
  subst hwe hlane
  exact ⟨_, exec_transact s i, by rw [hi, transact_classify, after_seen], by rw [hi, transact_classify, after_dst]⟩

/-- A row presented by BENC completes, shows its enables and lanes, and writes nothing (R120). -/
theorem exec_benc_completes (hi : i.transaction = .benc) (hwe : wemask i.len = we)
    (hlane : muxLanes s.cfg.leadMask i.cp i.len = lane) :
    ∃ t, exec i s = .next t ∧ t.seen = some (.standalone we lane) ∧ t.dst = s.dst := by
  subst hwe hlane
  exact ⟨_, exec_transact s i, by rw [hi, transact_benc, after_seen], by rw [hi, transact_benc, after_dst]⟩

end

end Sys2Proof.Machine
end

section
/-! Settled here: the statements of 41_byte_encoder.md about the four datapaths and what LEAD_MASK does not touch. -/

namespace Sys2Proof.Machine

/-- Settles O12: P1 is `0b0 ++ cp[6:0]` by definition, and at most 0x7F it loses no bit. -/
theorem enc1GivesTheLowSevenBits : Obligations.Enc1GivesTheLowSevenBits := by
  intro cp s lane
  have hlane : pathEnc1 cp = lane := rfl
  refine ⟨fun _ => ?_, fun _ => ?_, ?_, fun h => ?_⟩
  · exact exec_encode_completes rfl rfl hlane (writeLanes_one lane s.dst)
  · exact exec_classify_completes rfl rfl hlane
  · exact exec_benc_completes rfl rfl hlane
  · exact asciiByte_toNat h

/-- Settles O13: P2 as tags above slices, where each slice lies within the bits R123 names. -/
theorem enc2GivesTwoSlices : Obligations.Enc2GivesTwoSlices := by
  intro cp s lead lane
  have hlane : pathEnc2 s.cfg.leadMask cp = lane := by
    simp only [pathEnc2, contByte_eq_append, lead, lane]
  refine ⟨fun _ => ?_, fun _ => ?_, ?_, fun h => ?_, fun hlo hhi => ?_, fun c h => ?_, fun c h => ?_⟩
  · exact exec_encode_completes rfl rfl hlane (writeLanes_two lane s.dst)
  · exact exec_classify_completes rfl rfl hlane
  · exact exec_benc_completes rfl rfl hlane
  · simp only [lead, h, lead2_canonical]
  · exact lead2_ne_overlong _ hlo hhi
  · simp only [pathEnc2, lead2_wide6, contByte_eq_append, slice_eq_of_low_eq h, Nat.reduceAdd, Nat.reduceLeDiff]
  · simp only [pathEnc2, lead2_canonical, contByte_eq_append, slice_eq_of_low_eq h, Nat.reduceAdd, Nat.reduceLeDiff]

/-- Settles O14: P3 as tags above slices, where each slice lies within the bits R124 names. -/
theorem enc3GivesThreeSlices : Obligations.Enc3GivesThreeSlices := by
  intro cp s lead lane
  have hlane : pathEnc3 s.cfg.leadMask cp = lane := by
    simp only [pathEnc3, contByte_eq_append, lead, lane]
  refine ⟨fun _ => ?_, fun _ => ?_, ?_, fun h => ?_, fun c h => ?_, fun c h => ?_⟩
  · exact exec_encode_completes rfl rfl hlane (writeLanes_three lane s.dst)
  · exact exec_classify_completes rfl rfl hlane
  · exact exec_benc_completes rfl rfl hlane
  · simp only [lead, h, lead3_canonical]
  · simp only [pathEnc3, lead3_wide6, contByte_eq_append, slice_eq_of_low_eq h, Nat.reduceAdd, Nat.reduceLeDiff]
  · simp only [pathEnc3, lead3_canonical, contByte_eq_append, slice_eq_of_low_eq h, Nat.reduceAdd, Nat.reduceLeDiff]

/-- Settles O15: P4 as tags above slices, where each slice lies within the bits R125 names. -/
theorem enc4GivesFourSlices : Obligations.Enc4GivesFourSlices := by
  intro cp s lead lane
  have hlane : pathEnc4 s.cfg.leadMask cp = lane := by
    simp only [pathEnc4, contByte_eq_append, lead, lane]
  refine ⟨fun _ => ?_, fun _ => ?_, ?_, fun h => ?_, fun c h => ?_, fun c h => ?_⟩
  · exact exec_encode_completes rfl rfl hlane (writeLanes_four lane s.dst)
  · exact exec_classify_completes rfl rfl hlane
  · exact exec_benc_completes rfl rfl hlane
  · simp only [lead, h, lead4_canonical]
  · simp only [pathEnc4, lead4_wide6, contByte_eq_append, slice_eq_of_low_eq h, Nat.reduceAdd, Nat.reduceLeDiff]
  · simp only [pathEnc4, lead4_canonical, contByte_eq_append, slice_eq_of_low_eq h, Nat.reduceAdd, Nat.reduceLeDiff]

/-- Settles O21: the mux reads the mask for the first lane of lengths 2, 3 and 4 alone, and each other lane below the
length is the continuation byte of its six bits. -/
theorem leadMaskTouchesOnlyLeadingBytes : Obligations.LeadMaskTouchesOnlyLeadingBytes := by
  intro m cp
  refine ⟨muxLanes_eq_canonical m cp, rfl, fun len _ hlen k hk hklen => ?_⟩
  rw [byteEncoder_lane, muxLanes_continuation m cp len k hlen hk hklen, contByte_eq_setWidth]

end Sys2Proof.Machine
end

section
/-! Rules about what CLASSIFY and ENCODE show: both answer the outputs of `utf8_encoder`, whose length the byte list of
the code point has. -/

namespace Sys2Proof.Machine

/-- CLASSIFY as the caller's next line completes, in every state (R107). -/
theorem step_classify {s : State} {cp : Cp} {rest : List Stimulus}
    (h : s.script = .request (.classify cp) :: rest) :
    step s = .next ((s.advance rest).transact .classify cp (classify cp)) := by
  rw [step_request h, exec_decode_classify]

/-- CLASSIFY put first in the script completes, in every state (R107). -/
theorem step_withRequest_classify (s : State) (cp : Cp) :
    step (s.withRequest (.classify cp)) = .next (s.transact .classify cp (classify cp)) :=
  step_classify (withRequest_script s _)

section
variable (s : State) (cp : Cp)

/-- CLASSIFY shows the outputs of `utf8_encoder` (R25, R107). -/
theorem transact_classify_seen :
    (s.transact .classify cp (classify cp)).seen = some (utf8Outputs s.cfg.leadMask cp) := by
  rw [transact_seen, blockTransact_classify]; rfl

/-- ENCODE shows the outputs of `utf8_encoder` (R25, R150). -/
theorem transact_encode_seen :
    (s.transact .encode cp (classify cp)).seen = some (utf8Outputs s.cfg.leadMask cp) := by
  rw [transact_seen, blockTransact_encode]; rfl

/-- ENCODE leaves DST with the enabled lanes of `utf8_encoder` written (R152). -/
theorem transact_encode_dst :
    (s.transact .encode cp (classify cp)).dst =
      writeLanes (utf8Outputs s.cfg.leadMask cp).we (utf8Outputs s.cfg.leadMask cp).lane s.dst := by
  rw [transact_encode, after_dst]; rfl

/-- ENCODE is R10's function of the code point and the old DST. -/
theorem utf8Encode_eq_transact :
    utf8Encode s.cfg.leadMask cp s.dst = (classify cp, (s.transact .encode cp (classify cp)).dst) := by
  rw [transact_encode_dst]; rfl

end

/-- `len_o` of `utf8_encoder` is the classifier's result (R25). -/
@[simp] theorem utf8Outputs_lenO (m : LeadMask) (cp : Cp) : (utf8Outputs m cp).lenO = some (classify cp) := rfl

/-- The byte list of a code point has as many bytes as its class says (R42). -/
theorem utf8Bytes_length (m : LeadMask) (cp : Cp) : (utf8Bytes m cp).length = (classify cp).toNat := by
  rw [utf8Bytes, List.length_take, Vector.length_toList, Nat.min_eq_left (classify_le_four cp)]

end Sys2Proof.Machine
end

section
/-! Settled here: the statements of 42_encode_operation.md about one ENCODE: what it writes and what it shows. -/

namespace Sys2Proof.Machine

/-- Settles O25: `writeLanes` is R150's loop, and the rules of ENCODE say that it writes and shows the block's
outputs. -/
theorem encodeClassifiesPacksAndWrites : Obligations.EncodeClassifiesPacksAndWrites := by
  intro s cp rest hs n o w
  refine ⟨_, step_encode hs, ?_, ?_, ?_⟩
  · have hloop : w 3 (w 2 (w 1 (w 0 s.dst))) = writeLanes o.1 o.2 s.dst := rfl
    rw [hloop, transact_encode_dst]
    rfl
  · exact transact_encode_seen _ cp
  · exact utf8Encode_eq_transact (s.advance rest) cp

/-- Settles O26: the lanes ENCODE writes are those it shows, and writing lanes acts byte by byte. -/
theorem encodeUpdatesEnabledBytesOnly : Obligations.EncodeUpdatesEnabledBytesOnly := by
  intro s cp rest hs
  refine ⟨_, _, step_encode hs, transact_encode_seen _ cp, fun k => ?_⟩
  rw [transact_encode_dst, writeLanes_read, advance_dst]

/-- Settles O29: CLASSIFY and ENCODE show the same outputs, whose `len_o` is the class and the number of bytes. -/
theorem classAndByteCountAreOneOutput : Obligations.ClassAndByteCountAreOneOutput := by
  intro s cp
  refine ⟨⟨_, _, _, _, step_withRequest_classify s cp, step_withRequest_encode s cp, transact_classify_seen s cp,
    transact_encode_seen s cp, utf8Outputs_lenO _ cp, rfl⟩, utf8Bytes_length _ cp⟩

end Sys2Proof.Machine
end

section
/-! Rules about exceptional inputs: the class above CP_MAX, what a transaction with the sentinel length leaves, and the
step at each line of the script that is no request. -/

namespace Sys2Proof.Machine

/-- Above CP_MAX the class is the sentinel 0 (R100). -/
theorem classify_above_cpMax {cp : Cp} (h : cpMax < cp.toNat) : classify cp = 0#3 := by
  change 0x10FFFF < cp.toNat at h
  rcases classify_cases cp with ⟨hle, -⟩ | ⟨-, hle, -⟩ | ⟨-, hle, -⟩ | ⟨-, hle, -⟩ | ⟨-, hzero⟩
  case inr.inr.inr.inr => exact hzero
  all_goals omega

section
variable (s : State) (cp : Cp)

/-- CLASSIFY with length 0 shows the sentinel and idle lanes, and changes nothing else (R201). -/
theorem transact_classify_zero :
    s.transact .classify cp 0#3 = { s with seen := some (.block 0#3 0b0000#4 idleLanes) } := by
  rw [transact_classify, wemask_zero, muxLanes_zero, State.after]

/-- ENCODE with length 0 shows the sentinel and idle lanes, hands the harness the count 0 and writes no byte (R201). -/
theorem transact_encode_zero :
    s.transact .encode cp 0#3 =
      { s with seen := some (.block 0#3 0b0000#4 idleLanes), lastCount := 0#3 } := by
  rw [transact_encode, wemask_zero, muxLanes_zero, writeLanes_none, State.after]

end

section
variable {s : State} {rest : List Stimulus}

/-- With no line left nothing is issued and nothing changes (log entry 7). -/
theorem step_no_line (h : s.script = []) : step s = .next s := by
  simp only [step, State.takeStimulus, h]

/-- EMIT as the next line completes, in every state (R162). -/
theorem step_emit (h : s.script = .emit :: rest) : step s = .next (s.advance rest).emit := by
  simp only [step, State.takeStimulus, h]

/-- Two requesters at once are refused, in every state (R52). -/
theorem step_contended {a b : Cp} (h : s.script = .contended a b :: rest) : step s = .refused .twoRequesters := by
  simp only [step, State.takeStimulus, h]

end

/-- A step either meets two requesters and refuses them, or meets anything else and completes (R200). -/
theorem step_refuses_or_completes (s : State) :
    ((∃ a b rest, s.script = .contended a b :: rest) ∧ step s = .refused .twoRequesters) ∨
    ((∀ a b rest, s.script ≠ .contended a b :: rest) ∧ ∃ t, step s = .next t) := by
  match hs : s.script with
  | [] => exact .inr ⟨by simp, _, step_no_line hs⟩
  | .request r :: rest => exact .inr ⟨by simp, _, (step_request hs).trans (exec_transact _ _)⟩
  | .emit :: rest => exact .inr ⟨by simp, _, step_emit hs⟩
  | .contended a b :: rest => exact .inl ⟨⟨a, b, rest, rfl⟩, step_contended hs⟩

end Sys2Proof.Machine
end

section
/-! Settled here: the statements of 60_exceptions.md: the sentinel above CP_MAX, and the one refusal. -/

namespace Sys2Proof.Machine

/-- Settles O34: above CP_MAX the class is 0, and a transaction with length 0 shows it and writes nothing. -/
theorem unclassifiableGivesTheSentinel : Obligations.UnclassifiableGivesTheSentinel := by
  intro s cp rest hcp
  have hzero : classify cp = 0#3 := classify_above_cpMax hcp
  refine ⟨fun hs => ⟨.block 0#3 0b0000#4 idleLanes, ?_, rfl⟩,
    fun hs => ⟨.block 0#3 0b0000#4 idleLanes, ?_, rfl, rfl⟩⟩
  · rw [step_classify hs, hzero, transact_classify_zero, State.advance]
  · rw [step_encode hs, hzero, transact_encode_zero, State.advance]

/-- Settles O48: the two things a step can do, each with the one kind of line it does it on. -/
theorem onlyTwoRequestersAreRefused : Obligations.OnlyTwoRequestersAreRefused := by
  intro s
  rcases step_refuses_or_completes s with ⟨hline, hstep⟩ | ⟨hline, t, hstep⟩
  · refine ⟨by simp [hstep], fun r => ?_, fun hother => ?_⟩
    · rw [hstep, Host.Outcome.refused.injEq]
      exact ⟨fun h => ⟨h.symm, hline⟩, fun h => h.1.symm⟩
    · obtain ⟨a, b, rest, hs⟩ := hline
      exact absurd hs (hother a b rest)
  · exact ⟨by simp [hstep], fun r => by simp [hstep, hline], fun _ => ⟨t, hstep⟩⟩

end Sys2Proof.Machine
end

section
/-! Rules about the classifier: each class is its range, each class is at most `n` exactly below the bound of `n`, and
the threshold bits are comparisons. -/

namespace Sys2Proof.Machine

section
variable (cp : Cp)

theorem classify_eq_one_iff : classify cp = 1#3 ↔ cp.toNat ≤ 0x7F := by
  rcases classify_cases cp with h | h | h | h | h <;> simp [h] <;> omega

theorem classify_eq_two_iff : classify cp = 2#3 ↔ 0x80 ≤ cp.toNat ∧ cp.toNat ≤ 0x7FF := by
  rcases classify_cases cp with h | h | h | h | h <;> simp [h] <;> omega

theorem classify_eq_three_iff : classify cp = 3#3 ↔ 0x800 ≤ cp.toNat ∧ cp.toNat ≤ 0xFFFF := by
  rcases classify_cases cp with h | h | h | h | h <;> simp [h] <;> omega

theorem classify_eq_four_iff : classify cp = 4#3 ↔ 0x10000 ≤ cp.toNat ∧ cp.toNat ≤ 0x10FFFF := by
  rcases classify_cases cp with h | h | h | h | h <;> simp [h] <;> omega

theorem classify_eq_zero_iff : classify cp = 0#3 ↔ 0x110000 ≤ cp.toNat := by
  rcases classify_cases cp with h | h | h | h | h <;> simp [h] <;> omega

/-- The classifier answers one of five codes. -/
theorem classify_values :
    classify cp = 1#3 ∨ classify cp = 2#3 ∨ classify cp = 3#3 ∨ classify cp = 4#3 ∨ classify cp = 0#3 := by
  rcases classify_cases cp with h | h | h | h | h <;> simp [h]

end

/-- A code point up to CP_MAX has one of the four lengths. -/
theorem classify_values_of_le_cpMax {cp : Cp} (h : cp.toNat ≤ cpMax) :
    classify cp = 1#3 ∨ classify cp = 2#3 ∨ classify cp = 3#3 ∨ classify cp = 4#3 := by
  have hne : classify cp ≠ 0#3 := by
    rw [Ne, classify_eq_zero_iff]
    change cp.toNat ≤ 0x10FFFF at h
    omega
  simpa [hne] using classify_values cp

/-- Up to CP_MAX, `n` bytes are enough exactly below the bound of `n` (R106). -/
theorem classify_le_iff_lt_lengthBound {cp : Cp} (hcp : cp.toNat ≤ cpMax) {n : Nat} (hlo : 1 ≤ n) (hhi : n ≤ 4) :
    (classify cp).toNat ≤ n ↔ cp.toNat < lengthBound n := by
  change cp.toNat ≤ 0x10FFFF at hcp
  obtain rfl | rfl | rfl | rfl : n = 1 ∨ n = 2 ∨ n = 3 ∨ n = 4 := by omega
  all_goals rcases classify_cases cp with h | h | h | h | h <;> simp [h, lengthBound] <;> omega

/-- Up to CP_MAX the class is 1 to 4. -/
theorem classify_pos_of_le_cpMax {cp : Cp} (h : cp.toNat ≤ cpMax) : 1 ≤ (classify cp).toNat := by
  rcases classify_values_of_le_cpMax h with h | h | h | h <;> simp [h]

/-- The top `w` bits of a code point are 0 exactly when it is below `2 ^ s` (R101). -/
theorem highSlice_eq_zero_iff (cp : Cp) {s w : Nat} (hsw : s + w = 32) :
    cp.extractLsb' s w = 0#w ↔ cp.toNat < 2 ^ s := by
  have hfit : cp.toNat / 2 ^ s < 2 ^ w := by
    rw [Nat.div_lt_iff_lt_mul (Nat.two_pow_pos s), ← Nat.pow_add, Nat.add_comm w, hsw]
    exact cp.isLt
  rw [← BitVec.toNat_inj, BitVec.extractLsb'_toNat, Nat.shiftRight_eq_div_pow, Nat.mod_eq_of_lt hfit,
    BitVec.toNat_ofNat, Nat.zero_mod, Nat.div_eq_zero_iff_lt (Nat.two_pow_pos s)]

/-- Bit `n` of a code point, as a number. -/
theorem cp_bit_iff (cp : Cp) (n : Nat) : cp.getLsbD n = true ↔ cp.toNat / 2 ^ n % 2 = 1 := by
  simp [BitVec.getLsbD, Nat.testBit_eq_decide_div_mod_eq]

section
variable (cp : Cp)

theorem threshold1_iff : threshold1 cp = true ↔ cp.toNat ≤ 0x7F := by
  rw [threshold1, beq_iff_eq, highSlice_eq_zero_iff cp rfl]
  exact Nat.lt_succ_iff

theorem threshold2_iff : threshold2 cp = true ↔ cp.toNat ≤ 0x7FF := by
  rw [threshold2, beq_iff_eq, highSlice_eq_zero_iff cp rfl]
  exact Nat.lt_succ_iff

theorem threshold3_iff : threshold3 cp = true ↔ cp.toNat ≤ 0xFFFF := by
  rw [threshold3, beq_iff_eq, highSlice_eq_zero_iff cp rfl]
  exact Nat.lt_succ_iff

/-- Below `2 ^ 21` the bound 0x10FFFF is bit 20 with bits 19 to 16 below it (R101). -/
theorem threshold4_iff : threshold4 cp = true ↔ cp.toNat ≤ 0x10FFFF := by
  have hslice : cp.extractLsb' 16 4 = 0#4 ↔ cp.toNat / 2 ^ 16 % 2 ^ 4 = 0 := by
    rw [← BitVec.toNat_inj, BitVec.extractLsb'_toNat, Nat.shiftRight_eq_div_pow]
    rfl
  rw [threshold4, Bool.and_eq_true, Bool.or_eq_true, beq_iff_eq, beq_iff_eq, highSlice_eq_zero_iff cp rfl, hslice,
    Bool.not_eq_true', ← Bool.not_eq_true, cp_bit_iff]
  omega

theorem threshold2_of_threshold1 (h : threshold1 cp = true) : threshold2 cp = true := by
  rw [threshold1_iff] at h
  rw [threshold2_iff]
  omega

theorem threshold3_of_threshold2 (h : threshold2 cp = true) : threshold3 cp = true := by
  rw [threshold2_iff] at h
  rw [threshold3_iff]
  omega

theorem threshold4_of_threshold3 (h : threshold3 cp = true) : threshold4 cp = true := by
  rw [threshold3_iff] at h
  rw [threshold4_iff]
  omega

/-- With each bit as its comparison, the priority chain is R100's chain. -/
theorem thresholdTree_eq_classify : thresholdTree cp = classify cp := by
  simp only [thresholdTree, classify, threshold1_iff, threshold2_iff, threshold3_iff, threshold4_iff, BitVec.le_def,
    BitVec.toNat_ofNat, Nat.reducePow, Nat.reduceMod]

/-- Taking `t3` first changes nothing, since without it neither `t1` nor `t2` is set. -/
theorem balancedTree_eq_thresholdTree : balancedTree cp = thresholdTree cp := by
  by_cases h3 : threshold3 cp = true
  · simp only [balancedTree, thresholdTree, if_pos h3]
  · have h2 : ¬ threshold2 cp = true := fun h => h3 (threshold3_of_threshold2 cp h)
    have h1 : ¬ threshold1 cp = true := fun h => h2 (threshold2_of_threshold1 cp h)
    simp only [balancedTree, thresholdTree, if_neg h1, if_neg h2, if_neg h3]

end

end Sys2Proof.Machine
end

section
/-! Settled here: the statements of 40_length_classifier.md about the threshold trees and the order of the classes. -/

namespace Sys2Proof.Machine

/-- Settles O7: each threshold bit is its comparison, and through the comparisons each tree is R100's chain. -/
theorem thresholdTreesComputeTheClassifier : Obligations.ThresholdTreesComputeTheClassifier := by
  intro cp
  exact ⟨threshold1_iff cp, threshold2_iff cp, threshold3_iff cp, threshold4_iff cp, threshold2_of_threshold1 cp,
    threshold3_of_threshold2 cp, threshold4_of_threshold3 cp, thresholdTree_eq_classify cp,
    (balancedTree_eq_thresholdTree cp).trans (thresholdTree_eq_classify cp)⟩

/-- Settles O8: "at most `n`" is "below the bound of `n`", which every larger code point's bound is too. -/
theorem classifyIsMonotoneAndLeast : Obligations.ClassifyIsMonotoneAndLeast := by
  refine ⟨fun a b hab hb => ?_, fun cp hcp => ?_, fun cp => classify_above_cpMax⟩
  · have hpos := classify_pos_of_le_cpMax hb
    rw [classify_le_iff_lt_lengthBound (hab.trans hb) hpos (classify_le_four b)]
    exact hab.trans_lt ((classify_le_iff_lt_lengthBound hb hpos (classify_le_four b)).1 le_rfl)
  · have hpos := classify_pos_of_le_cpMax hcp
    exact ⟨hpos, classify_le_four cp, (classify_le_iff_lt_lengthBound hcp hpos (classify_le_four cp)).1 le_rfl,
      fun n hlo hhi => (classify_le_iff_lt_lengthBound hcp hlo hhi).2⟩

/-- Settles O9: the classifier evaluated at each boundary value. -/
theorem classifyBoundaryValues : Obligations.ClassifyBoundaryValues := by
  unfold Obligations.ClassifyBoundaryValues
  decide

end Sys2Proof.Machine
end

section
/-! Rules about the decoder: the case a row's length selects, the class of a well-formed row, and the table's pairs as
ranges. -/

namespace Sys2Proof.Machine

/-- The reserved codes are the lengths from 5 up (R68). -/
theorem lenReserved_iff (len : Len) : lenReserved len = true ↔ 5 ≤ len.toNat := by
  revert len; decide

/-- The lengths that are not reserved. -/
theorem len_le_four_cases {len : Len} (h : len.toNat ≤ 4) :
    len = 0#3 ∨ len = 1#3 ∨ len = 2#3 ∨ len = 3#3 ∨ len = 4#3 := by
  revert len; decide

/-- A code point or a length that selects a case by `len` decodes to that case's instruction (R64, R65). -/
theorem decode_request {t : Transaction} {cp : Cp} {len : Len} (hlen : lenReserved len = false)
    (hclass : t ≠ .benc → classify cp = len) : decode (t.request cp len) = (caseOfLen len).instr t cp := by
  cases t with
  | classify => simp only [Transaction.request, decode, selectCase, hclass (by decide)]
  | encode => simp only [Transaction.request, decode, selectCase, hclass (by decide)]
  | benc => simp only [Transaction.request, decode, hlen, Bool.false_eq_true, if_false]

/-- A reserved length at a standalone `byte_encoder` decodes to row LEN_RSVD (R68). -/
theorem decode_benc_reserved (cp : Cp) {len : Len} (h : 5 ≤ len.toNat) : decode (.benc cp len) = .lenRsvd cp len := by
  rw [decode, if_pos ((lenReserved_iff len).2 h)]

/-- Through CLASSIFY and ENCODE a row is selectable on its range alone (R60). -/
theorem selectable_iff_range {lo hi : Nat} {t : Transaction} {cp : Cp} (ht : t ≠ .benc) :
    selectable lo hi t cp = true ↔ lo ≤ cp.toNat ∧ cp.toNat ≤ hi := by
  cases t with
  | classify => simp [selectable]
  | encode => simp [selectable]
  | benc => exact absurd rfl ht

/-- An instruction presented by CLASSIFY or ENCODE is well-formed when it carries its code point's class (R60, R64). -/
theorem wellFormed_iff_class {i : Instr} (ht : i.transaction ≠ .benc) :
    i.wellFormed = true ↔ classify i.cp = i.len := by
  cases i with
  | enc1 t cp =>
    exact (selectable_iff_range ht).trans (by simp [classify_eq_one_iff, Instr.cp, Instr.len])
  | enc2 t cp => exact (selectable_iff_range ht).trans (classify_eq_two_iff cp).symm
  | enc3 t cp => exact (selectable_iff_range ht).trans (classify_eq_three_iff cp).symm
  | enc4 t cp => exact (selectable_iff_range ht).trans (classify_eq_four_iff cp).symm
  | enc0 t cp =>
    have hmax : cp.toNat ≤ 0xFFFFFFFF := Nat.le_of_lt_succ cp.isLt
    exact (selectable_iff_range ht).trans (by simp [classify_eq_zero_iff, Instr.cp, Instr.len, hmax])
  | lenRsvd cp len => exact absurd rfl ht

/-- What a case's instruction places on the ports: its transaction, its code point and its length (R72). -/
theorem encode_instr (c : Case) (t : Transaction) (cp : Cp) :
    encode (c.instr t cp) = t.request cp (c.instr t cp).len := by
  cases c <;> rfl

/-- A case presented by BENC is well-formed with every code point (R131). -/
theorem instr_benc_wellFormed (c : Case) (cp : Cp) : (c.instr .benc cp).wellFormed = true := by
  cases c <;> rfl

/-- A length that is not reserved is that of the case it selects (R65). -/
theorem caseOfLen_instr_len {len : Len} (h : lenReserved len = false) (t : Transaction) (cp : Cp) :
    ((caseOfLen len).instr t cp).len = len := by
  have hle : len.toNat ≤ 4 := by
    rw [← Bool.not_eq_true, lenReserved_iff] at h
    omega
  rcases len_le_four_cases hle with rfl | rfl | rfl | rfl | rfl <;> rfl

/-- The case a code point selects, presented by CLASSIFY or ENCODE, is well-formed (R64). -/
theorem selectCase_wellFormed {t : Transaction} (ht : t ≠ .benc) (cp : Cp) :
    ((selectCase cp).instr t cp).wellFormed = true := by
  obtain ⟨htrans, hcp⟩ := instr_ports cp (selectCase cp) t
  rw [wellFormed_iff_class (by rwa [htrans]), hcp, selectCase_len]

/-- A pair whose mask is the bits from `n` up compares the code point rounded down to a multiple of `2 ^ n` (R64). -/
theorem pair_match_iff (cp value mask : Cp) (n : Nat) (hmask : mask = BitVec.allOnes 32 <<< n) :
    (cp &&& mask == value) = true ↔ cp.toNat / 2 ^ n * 2 ^ n = value.toNat := by
  have hfit : cp.toNat / 2 ^ n * 2 ^ n < 2 ^ 32 := (Nat.div_mul_le_self _ _).trans_lt cp.isLt
  rw [beq_iff_eq, hmask, ← BitVec.shiftLeft_ushiftRight, ← BitVec.toNat_inj, BitVec.toNat_shiftLeft,
    BitVec.toNat_ushiftRight, Nat.shiftRight_eq_div_pow, Nat.shiftLeft_eq, Nat.mod_eq_of_lt hfit]

/-- The case a code point selects, range by range (R60, R64). -/
theorem selectCase_eq_ranges (cp : Cp) :
    selectCase cp =
      if cp.toNat ≤ 0x7F then .enc1
      else if cp.toNat ≤ 0x7FF then .enc2
      else if cp.toNat ≤ 0xFFFF then .enc3
      else if cp.toNat ≤ 0x10FFFF then .enc4
      else .enc0 := by
  rcases classify_cases cp with ⟨h1, h⟩ | ⟨h1, h2, h⟩ | ⟨h2, h3, h⟩ | ⟨h3, h4, h⟩ | ⟨h4, h⟩
  · rw [if_pos h1, selectCase, h]; rfl
  · rw [if_neg (by omega), if_pos h2, selectCase, h]; rfl
  · rw [if_neg (by omega), if_neg (by omega), if_pos h3, selectCase, h]; rfl
  · rw [if_neg (by omega), if_neg (by omega), if_neg (by omega), if_pos h4, selectCase, h]; rfl
  · rw [if_neg (by omega), if_neg (by omega), if_neg (by omega), if_neg (by omega), selectCase, h]; rfl

/-- The table's first accepting row, range by range: each pair rounds the code point down (R64). -/
theorem tableCase_eq_ranges (cp : Cp) :
    tableCase cp =
      if cp.toNat ≤ 0x7F then .enc1
      else if cp.toNat ≤ 0x7FF then .enc2
      else if cp.toNat ≤ 0xFFFF then .enc3
      else if cp.toNat ≤ 0x10FFFF then .enc4
      else .enc0 := by
  have h1 : (cp &&& 0xFFFFFF80#32 == 0x00000000#32) = true ↔ cp.toNat ≤ 0x7F := by
    rw [pair_match_iff cp 0x00000000#32 0xFFFFFF80#32 7 rfl, BitVec.toNat_ofNat]; omega
  have h2 : (cp &&& 0xFFFFF800#32 == 0x00000000#32) = true ↔ cp.toNat ≤ 0x7FF := by
    rw [pair_match_iff cp 0x00000000#32 0xFFFFF800#32 11 rfl, BitVec.toNat_ofNat]; omega
  have h3 : (cp &&& 0xFFFF0000#32 == 0x00000000#32) = true ↔ cp.toNat ≤ 0xFFFF := by
    rw [pair_match_iff cp 0x00000000#32 0xFFFF0000#32 16 rfl, BitVec.toNat_ofNat]; omega
  have h4 : (cp &&& 0xFFF00000#32 == 0x00000000#32 || cp &&& 0xFFFF0000#32 == 0x00100000#32) = true ↔
      cp.toNat ≤ 0x10FFFF := by
    rw [Bool.or_eq_true, pair_match_iff cp 0x00000000#32 0xFFF00000#32 20 rfl,
      pair_match_iff cp 0x00100000#32 0xFFFF0000#32 16 rfl, BitVec.toNat_ofNat, BitVec.toNat_ofNat]
    omega
  simp only [tableCase, firstAccepting, cp32Rows, Row.accepts, List.any_cons, List.any_nil, Bool.or_false,
    BitVec.ofNat_eq_ofNat, h1, h2, h3, h4, ite_self]

end Sys2Proof.Machine
end

section
/-! Settled here: the statements of 30_encoding.md about the decoder: the case each port value selects, and that nothing
on the ports is lost. -/

namespace Sys2Proof.Machine

/-- Settles O2: a row's length selects its case, and through CLASSIFY and ENCODE a well-formed row carries its code
point's class. -/
theorem decodeOfEncodeIsTheInstruction : Obligations.DecodeOfEncodeIsTheInstruction := by
  intro i hwf
  have hclass : i.transaction ≠ .benc → classify i.cp = i.len := fun ht => (wellFormed_iff_class ht).1 hwf
  cases i with
  | enc1 t cp => exact decode_request rfl hclass
  | enc2 t cp => exact decode_request rfl hclass
  | enc3 t cp => exact decode_request rfl hclass
  | enc4 t cp => exact decode_request rfl hclass
  | enc0 t cp => exact decode_request rfl hclass
  | lenRsvd cp len => exact decode_benc_reserved cp (of_decide_eq_true hwf)

/-- Settles O3: a code point's case is well-formed on it, every case is under BENC, and either places back what selected
it. -/
theorem everyRequestDecodesWithoutLoss : Obligations.EveryRequestDecodesWithoutLoss := by
  intro r
  cases r with
  | classify cp => exact ⟨selectCase_wellFormed (by decide) cp, encode_instr _ _ cp⟩
  | encode cp => exact ⟨selectCase_wellFormed (by decide) cp, encode_instr _ _ cp⟩
  | benc cp len =>
    by_cases hlen : lenReserved len = true
    · have h5 : 5 ≤ len.toNat := (lenReserved_iff len).1 hlen
      rw [decode_benc_reserved cp h5]
      exact ⟨decide_eq_true h5, rfl⟩
    · rw [decode, if_neg hlen]
      refine ⟨instr_benc_wellFormed _ cp, ?_⟩
      rw [encode_instr, caseOfLen_instr_len (Bool.eq_false_of_not_eq_true hlen)]
      rfl

/-- Settles O4: the length class and the table's pairs are one chain of ranges. -/
theorem tablePairsRangesAndLengthClassAgree : Obligations.TablePairsRangesAndLengthClassAgree := by
  intro cp
  refine ⟨(tableCase_eq_ranges cp).trans (selectCase_eq_ranges cp).symm, ?_⟩
  rw [selectCase_eq_ranges]
  split_ifs <;> simp <;> omega

/-- Settles O5: the codes 0 to 4 by evaluation, the reserved ones by the decoder's rule for them. -/
theorem lengthCodesSelectTheirRows : Obligations.LengthCodesSelectTheirRows :=
  fun cp => ⟨rfl, rfl, rfl, rfl, rfl, fun _ => decode_benc_reserved cp⟩

/-- Settles O1: the decoder evaluated at each word. -/
theorem specWordsDecodeToTheirRows : Obligations.SpecWordsDecodeToTheirRows := by
  unfold Obligations.SpecWordsDecodeToTheirRows
  decide

end Sys2Proof.Machine
end

section
/-! Rules about the byte encoder: the bytes and the formats as numbers, the formats of the leading and continuation
bytes, and the lanes a length leaves idle. -/

namespace Sys2Proof.Machine

/-- A slice of the code point below a tag, as a number. -/
theorem append_slice_toNat {k : Nat} (p : BitVec k) (cp : Cp) (s w : Nat) :
    (p ++ cp.extractLsb' s w).toNat = p.toNat * 2 ^ w + cp.toNat / 2 ^ s % 2 ^ w := by
  rw [BitVec.toNat_append, BitVec.extractLsb'_toNat, Nat.shiftRight_eq_div_pow,
    ← Nat.shiftLeft_add_eq_or_of_lt (Nat.mod_lt _ (Nat.two_pow_pos w)), Nat.shiftLeft_eq]

section
variable (cp : Cp)

theorem contByte_toNat (s : Nat) : (contByte cp s).toNat = 0x80 + cp.toNat / 2 ^ s % 64 := by
  rw [contByte_eq_append, append_slice_toNat]; rfl

theorem lead2_toNat : (lead2 .canonical cp).toNat = 0xC0 + cp.toNat / 64 % 32 := by
  rw [lead2_canonical, append_slice_toNat]; rfl

theorem lead3_toNat : (lead3 .canonical cp).toNat = 0xE0 + cp.toNat / 4096 % 16 := by
  rw [lead3_canonical, append_slice_toNat]; rfl

theorem lead4_toNat : (lead4 .canonical cp).toNat = 0xF0 + cp.toNat / 262144 % 8 := by
  rw [lead4_canonical, append_slice_toNat]; rfl

theorem lead2_wide6_toNat : (lead2 .wide6 cp).toNat = 0xC0 + cp.toNat / 64 % 64 := by
  rw [lead2_wide6, append_slice_toNat]; rfl

theorem lead3_wide6_toNat : (lead3 .wide6 cp).toNat = 0xE0 + cp.toNat / 4096 % 32 := by
  rw [lead3_wide6, append_slice_toNat]; rfl

theorem lead4_wide6_toNat : (lead4 .wide6 cp).toNat = 0xF0 + cp.toNat / 262144 % 16 := by
  rw [lead4_wide6, append_slice_toNat]; rfl

end

/-- The top `w` bits of a byte are `p` exactly when the byte lies in the block of `2 ^ s` values that `p` heads. -/
theorem byteTop_beq_iff (b : Byte) {s w : Nat} (p : BitVec w) (hsw : s + w = 8) :
    (b.extractLsb' s w == p) = true ↔ p.toNat * 2 ^ s ≤ b.toNat ∧ b.toNat < (p.toNat + 1) * 2 ^ s := by
  have hfit : b.toNat / 2 ^ s < 2 ^ w := by
    rw [Nat.div_lt_iff_lt_mul (Nat.two_pow_pos s), ← Nat.pow_add, Nat.add_comm w, hsw]
    exact b.isLt
  rw [beq_iff_eq, ← BitVec.toNat_inj, BitVec.extractLsb'_toNat, Nat.shiftRight_eq_div_pow, Nat.mod_eq_of_lt hfit,
    Nat.div_eq_iff (Nat.two_pow_pos s), Nat.succ_mul]
  have hpos : 0 < 2 ^ s := Nat.two_pow_pos s
  omega

section
variable (b : Byte)

theorem isB1_iff : isB1 b = true ↔ b.toNat < 0x80 :=
  (byteTop_beq_iff b 0b0#1 rfl).trans (by simp)

theorem isB2L_iff : isB2L b = true ↔ 0xC0 ≤ b.toNat ∧ b.toNat < 0xE0 := byteTop_beq_iff b 0b110#3 rfl

theorem isB3L_iff : isB3L b = true ↔ 0xE0 ≤ b.toNat ∧ b.toNat < 0xF0 := byteTop_beq_iff b 0b1110#4 rfl

theorem isB4L_iff : isB4L b = true ↔ 0xF0 ≤ b.toNat ∧ b.toNat < 0xF8 := byteTop_beq_iff b 0b11110#5 rfl

theorem isBC_iff : isBC b = true ↔ 0x80 ≤ b.toNat ∧ b.toNat < 0xC0 := byteTop_beq_iff b 0b10#2 rfl

end

section
variable (cp : Cp)

theorem isB1_asciiByte : isB1 (asciiByte cp) = true := by
  rw [isB1_iff, asciiByte, append_slice_toNat]
  simp only [BitVec.toNat_ofNat]
  omega

theorem isBC_contByte (s : Nat) : isBC (contByte cp s) = true := by
  rw [isBC_iff, contByte_toNat]; omega

theorem isB2L_lead2 : isB2L (lead2 .canonical cp) = true := by
  rw [isB2L_iff, lead2_toNat]; omega

theorem isB3L_lead3 : isB3L (lead3 .canonical cp) = true := by
  rw [isB3L_iff, lead3_toNat]; omega

theorem isB4L_lead4 : isB4L (lead4 .canonical cp) = true := by
  rw [isB4L_iff, lead4_toNat]; omega

/-- The wide mask leaves the leading byte of length 2 alone unless cp[11] is set (R131). -/
theorem lead2_eq_wide6_iff : lead2 .canonical cp = lead2 .wide6 cp ↔ ¬ cp.getLsbD 11 = true := by
  rw [← BitVec.toNat_inj, lead2_toNat, lead2_wide6_toNat, cp_bit_iff]
  omega

theorem lead3_eq_wide6_iff : lead3 .canonical cp = lead3 .wide6 cp ↔ ¬ cp.getLsbD 16 = true := by
  rw [← BitVec.toNat_inj, lead3_toNat, lead3_wide6_toNat, cp_bit_iff]
  omega

theorem lead4_eq_wide6_iff : lead4 .canonical cp = lead4 .wide6 cp ↔ ¬ cp.getLsbD 21 = true := by
  rw [← BitVec.toNat_inj, lead4_toNat, lead4_wide6_toNat, cp_bit_iff]
  omega

end

/-- The two builds of a standalone `byte_encoder` agree exactly off the leaked bit (R131). -/
theorem byteEncoder_eq_wide6_iff (cp : Cp) (len : Len) :
    byteEncoder .canonical cp len = byteEncoder .wide6 cp len ↔
      ¬ ((len = 2#3 ∧ cp.getLsbD 11 = true) ∨ (len = 3#3 ∧ cp.getLsbD 16 = true) ∨
        (len = 4#3 ∧ cp.getLsbD 21 = true)) := by
  have hlanes : byteEncoder .canonical cp len = byteEncoder .wide6 cp len ↔
      muxLanes .canonical cp len = muxLanes .wide6 cp len := by simp [Prod.ext_iff]
  rw [hlanes]
  by_cases hlen : len = 2#3 ∨ len = 3#3 ∨ len = 4#3
  · rcases hlen with rfl | rfl | rfl
    · simp [pathEnc2, lead2_eq_wide6_iff]
    · simp [pathEnc3, lead3_eq_wide6_iff]
    · simp [pathEnc4, lead4_eq_wide6_iff]
  · have hsame : muxLanes .canonical cp len = muxLanes .wide6 cp len :=
      memory_ext _ _ fun k => (muxLanes_eq_canonical .wide6 cp len k (fun h => hlen h.2)).symm
    obtain ⟨h2, h3, h4⟩ : len ≠ 2#3 ∧ len ≠ 3#3 ∧ len ≠ 4#3 := by simpa [not_or] using hlen
    simp [hsame, h2, h3, h4]

/-- A reserved length selects no datapath (R68, R126). -/
theorem muxLanes_reserved (m : LeadMask) (cp : Cp) {len : Len} (h : 5 ≤ len.toNat) :
    muxLanes m cp len = idleLanes := by
  have hlen : len = 5#3 ∨ len = 6#3 ∨ len = 7#3 := by
    revert len; decide
  rcases hlen with rfl | rfl | rfl <;> rfl

/-- A reserved length enables no lane (R121). -/
theorem wemask_reserved {len : Len} (h : 5 ≤ len.toNat) : wemask len = 0b0000#4 := by
  revert len; decide

/-- Every idle lane is 0x00 (R126). -/
theorem idleLanes_read (k : Fin 4) : idleLanes[k] = 0#8 := by
  revert k; decide

/-- From the length up, every lane is 0x00 (R130). -/
theorem muxLanes_idle (m : LeadMask) (cp : Cp) {len : Len} {k : Fin 4} (hlen : len.toNat ≤ 4) (hk : len.toNat ≤ k.val) :
    (muxLanes m cp len)[k] = 0#8 := by
  rcases len_le_four_cases hlen with rfl | rfl | rfl | rfl | rfl
  · exact idleLanes_read k
  · change 1 ≤ k.val at hk
    obtain rfl | rfl | rfl : k = 1 ∨ k = 2 ∨ k = 3 := by omega
    all_goals rfl
  · change 2 ≤ k.val at hk
    obtain rfl | rfl : k = 2 ∨ k = 3 := by omega
    all_goals rfl
  · change 3 ≤ k.val at hk
    obtain rfl : k = 3 := by omega
    rfl
  · change 4 ≤ k.val at hk
    omega

/-- How many enables a length sets (R154). -/
theorem popcount_wemask {len : Len} (h : len.toNat ≤ 4) : popcount (wemask len) = len.toNat := by
  revert len; decide

end Sys2Proof.Machine
end

section
/-! Settled here: the statements of 41_byte_encoder.md about the standalone `byte_encoder`: its bytes, formats, enables
and idle lanes, and the two masks. -/

namespace Sys2Proof.Machine

/-- Settles O11: the thermometer law, and R121's table evaluated. -/
theorem writeEnablesAreAThermometer : Obligations.WriteEnablesAreAThermometer :=
  ⟨enabled_wemask, by decide⟩

/-- Settles O20: each byte is its tag above a slice. -/
theorem shiftAndMaskBytesAreSlices : Obligations.ShiftAndMaskBytesAreSlices := fun cp =>
  ⟨lead2_canonical cp, lead3_canonical cp, lead4_canonical cp, lead2_wide6 cp, lead3_wide6 cp, lead4_wide6 cp,
    contByte_eq_append cp 0, contByte_eq_append cp 6, contByte_eq_append cp 12⟩

/-- Settles O22: the first lanes of lengths 2, 3 and 4 differ exactly where the wide mask lets a 1 through. -/
theorem masksDifferExactlyOnTheLeakedBit : Obligations.MasksDifferExactlyOnTheLeakedBit := by
  intro cp len
  rw [Ne, byteEncoder_eq_wide6_iff, not_not]

/-- Settles O23: length by length, each lane of the datapath has its format. -/
theorem canonicalStandaloneKeepsTheFormat : Obligations.CanonicalStandaloneKeepsTheFormat := by
  intro cp len
  rcases len_cases len with rfl | rfl | rfl | rfl | rfl | rfl | rfl | rfl
  · rfl
  · exact isB1_asciiByte cp
  · simp [sequenceFormat, pathEnc2, isB2L_lead2, isBC_contByte]
  · simp [sequenceFormat, pathEnc3, isB3L_lead3, isBC_contByte]
  · simp [sequenceFormat, pathEnc4, isB4L_lead4, isBC_contByte]
  all_goals rfl

/-- Settles O24: a lane that is not enabled lies above a length up to 4, or the length is reserved. -/
theorem idleLanesCarryZero : Obligations.IdleLanesCarryZero := by
  intro m cp len k hidle
  rw [byteEncoder_we, ← Bool.not_eq_true, enabled_wemask] at hidle
  rw [byteEncoder_lane]
  by_cases hlen : len.toNat ≤ 4
  · exact muxLanes_idle m cp hlen (Nat.not_lt.mp fun hk => hidle ⟨hk, hlen⟩)
  · rw [muxLanes_reserved m cp (Nat.not_le.mp hlen)]
    exact idleLanes_read k

/-- Settles O30: the enables of a class are its first lanes, and as many. -/
theorem enabledLanesCountTheLength : Obligations.EnabledLanesCountTheLength := fun m cp =>
  ⟨popcount_wemask (classify_le_four cp), utf8Outputs_lenO m cp, enabled_wemask_classify cp⟩

end Sys2Proof.Machine
end

section
/-! Rules about one transaction: what it keeps, and its whole next state as CLASSIFY, ENCODE and BENC leave it. -/

namespace Sys2Proof.Machine

section
variable (s : State) (t : Transaction) (cp : Cp) (len : Len)

@[simp] theorem transact_cfg : (s.transact t cp len).cfg = s.cfg := by simp [State.transact]

@[simp] theorem transact_script : (s.transact t cp len).script = s.script := by simp [State.transact]

@[simp] theorem transact_out : (s.transact t cp len).out = s.out := by simp [State.transact]

end

/-- BENC as the caller's next line completes, in every state (R120). -/
theorem step_benc {s : State} {cp : Cp} {len : Len} {rest : List Stimulus}
    (h : s.script = .request (.benc cp len) :: rest) :
    step s = .next ((s.advance rest).transact .benc cp len) := by
  rw [step_request h, exec_decode_benc]

section
variable {i : Instr} {s : State} {we : We} {lane : Lanes}

/-- The whole next state of a row presented by ENCODE (R120, R150). -/
theorem exec_encode_eq_after {d : Memory} (hi : i.transaction = .encode) (hwe : wemask i.len = we)
    (hlane : muxLanes s.cfg.leadMask i.cp i.len = lane) (hd : writeLanes we lane s.dst = d) :
    exec i s = .next (s.after (.block i.len we lane) d i.len) := by
  subst hwe hlane hd
  rw [exec_transact, hi, transact_encode]

/-- The whole next state of a row presented by CLASSIFY (R107, R120). -/
theorem exec_classify_eq_after (hi : i.transaction = .classify) (hwe : wemask i.len = we)
    (hlane : muxLanes s.cfg.leadMask i.cp i.len = lane) :
    exec i s = .next (s.after (.block i.len we lane) s.dst s.lastCount) := by
  subst hwe hlane
  rw [exec_transact, hi, transact_classify]

/-- The whole next state of a row presented by BENC (R120). -/
theorem exec_benc_eq_after (hi : i.transaction = .benc) (hwe : wemask i.len = we)
    (hlane : muxLanes s.cfg.leadMask i.cp i.len = lane) :
    exec i s = .next (s.after (.standalone we lane) s.dst s.lastCount) := by
  subst hwe hlane
  rw [exec_transact, hi, transact_benc]

end

section
variable (cp : Cp)

/-- The lanes of length 2 under WIDE6 as tags above slices (R123, R128). -/
theorem muxLanes_two_wide6 :
    muxLanes .wide6 cp 2#3 = #v[0b11#2 ++ cp.extractLsb' 6 6, 0b10#2 ++ cp.extractLsb' 0 6, 0#8, 0#8] := by
  simp only [muxLanes_two, pathEnc2, lead2_wide6, contByte_eq_append]

/-- The lanes of length 3 under WIDE6 as tags above slices (R124, R128). -/
theorem muxLanes_three_wide6 :
    muxLanes .wide6 cp 3#3 =
      #v[0b111#3 ++ cp.extractLsb' 12 5, 0b10#2 ++ cp.extractLsb' 6 6, 0b10#2 ++ cp.extractLsb' 0 6, 0#8] := by
  simp only [muxLanes_three, pathEnc3, lead3_wide6, contByte_eq_append]

/-- The lanes of length 4 under WIDE6 as tags above slices (R125, R128). -/
theorem muxLanes_four_wide6 :
    muxLanes .wide6 cp 4#3 =
      #v[0b1111#4 ++ cp.extractLsb' 18 4, 0b10#2 ++ cp.extractLsb' 12 6, 0b10#2 ++ cp.extractLsb' 6 6,
        0b10#2 ++ cp.extractLsb' 0 6] := by
  simp only [muxLanes_four, pathEnc4, lead4_wide6, contByte_eq_append]

end

end Sys2Proof.Machine
end

section
/-! Settled here: the exact next states of transactions and rows, and what every row leaves unchanged. -/

namespace Sys2Proof.Machine

/-- Settles O46: the rule of a request as the caller's next line. -/
theorem stepRunsTheDecodedInstruction : Obligations.StepRunsTheDecodedInstruction :=
  fun _ _ _ hs => step_request hs

/-- Settles O47: the rule of an empty script. -/
theorem nothingIssuedNothingChanges : Obligations.NothingIssuedNothingChanges :=
  fun _ hs => step_no_line hs

/-- Settles O10: CLASSIFY's transaction on the state with its line taken off. -/
theorem classifyTransactionShowsTheClass : Obligations.ClassifyTransactionShowsTheClass :=
  fun _ cp _ hs => ⟨step_classify hs, utf8Outputs_lenO _ cp⟩

/-- Settles O19: BENC's transaction on the state with its line taken off, and the mux at each length. -/
theorem bencTransactionShowsTheByteEncoder : Obligations.BencTransactionShowsTheByteEncoder := by
  intro s cp len rest hs
  refine ⟨muxLanes s.cfg.leadMask cp len, step_benc hs, ?_, ?_, ?_, ?_, ?_⟩
  · rintro rfl; exact muxLanes_one _ cp
  · rintro rfl; exact muxLanes_two _ cp
  · rintro rfl; exact muxLanes_three _ cp
  · rintro rfl; exact muxLanes_four _ cp
  · rintro (rfl | h)
    · exact muxLanes_zero _ cp
    · exact muxLanes_reserved _ cp h

/-- Settles O16: the wide leading bytes as tags above slices, in the whole next state of each row. -/
theorem wideMaskRowResults : Obligations.WideMaskRowResults := by
  intro cp s hwide b0 b6 b12 l2 l3 l4
  have h2 : muxLanes s.cfg.leadMask cp 2#3 = #v[l2, b0, 0#8, 0#8] := by
    rw [hwide]; exact muxLanes_two_wide6 cp
  have h3 : muxLanes s.cfg.leadMask cp 3#3 = #v[l3, b6, b0, 0#8] := by
    rw [hwide]; exact muxLanes_three_wide6 cp
  have h4 : muxLanes s.cfg.leadMask cp 4#3 = #v[l4, b12, b6, b0] := by
    rw [hwide]; exact muxLanes_four_wide6 cp
  refine ⟨?_, ?_, ?_, ?_, ?_, ?_, ?_, ?_, ?_⟩
  · exact exec_encode_eq_after rfl wemask_two h2 (writeLanes_two _ _)
  · exact exec_classify_eq_after rfl wemask_two h2
  · exact exec_benc_eq_after rfl wemask_two h2
  · exact exec_encode_eq_after rfl wemask_three h3 (writeLanes_three _ _)
  · exact exec_classify_eq_after rfl wemask_three h3
  · exact exec_benc_eq_after rfl wemask_three h3
  · exact exec_encode_eq_after rfl wemask_four h4 (writeLanes_four _ _)
  · exact exec_classify_eq_after rfl wemask_four h4
  · exact exec_benc_eq_after rfl wemask_four h4

/-- Settles O17: length 0 selects no datapath and writes nothing. -/
theorem enc0WritesNothing : Obligations.Enc0WritesNothing := by
  intro cp s lane
  have hlane : muxLanes s.cfg.leadMask cp 0#3 = lane := muxLanes_zero _ cp
  exact ⟨exec_encode_eq_after rfl wemask_zero hlane (writeLanes_none lane s.dst),
    exec_classify_eq_after rfl wemask_zero hlane, exec_benc_eq_after rfl wemask_zero hlane⟩

/-- Settles O18: a reserved length gives the enables and lanes of length 0. -/
theorem reservedLengthsActAsZero : Obligations.ReservedLengthsActAsZero := by
  intro cp len s hlen
  have hrsvd := exec_benc_eq_after (i := .lenRsvd cp len) (s := s) rfl (wemask_reserved hlen)
    (muxLanes_reserved _ cp hlen)
  have hzero := exec_benc_eq_after (i := .enc0 .benc cp) (s := s) rfl wemask_zero (muxLanes_zero _ cp)
  exact ⟨hrsvd, hrsvd.trans hzero.symm⟩

/-- Settles O44: every row is a transaction, and neither CLASSIFY nor BENC changes more than the observation. -/
theorem nonStoringRowsFrame : Obligations.NonStoringRowsFrame := by
  intro i s hi
  refine ⟨_, exec_transact s i, ?_⟩
  cases ht : i.transaction with
  | classify => exact ⟨fun _ => rfl, rfl, rfl, rfl, rfl⟩
  | encode => exact absurd ht hi
  | benc => exact ⟨fun _ => rfl, rfl, rfl, rfl, rfl⟩

/-- Settles O45: ENCODE writes the enabled lanes alone, and hands the harness the row's length. -/
theorem storingRowsFrame : Obligations.StoringRowsFrame := by
  intro i s hi
  refine ⟨_, exec_transact s i, fun k hk => ?_, transact_cfg s _ _ _, transact_script s _ _ _, ?_, transact_out s _ _ _⟩
  · rw [hi, transact_encode, after_dst, writeLanes_read, if_neg (by simp [hk])]
  · rw [hi, transact_encode, after_lastCount]

/-- Settles O57: every row is a transaction of the byte encoder at the row's length. -/
theorem rowsRunAtTheirOwnLength : Obligations.RowsRunAtTheirOwnLength := by
  intro i s o
  refine ⟨_, exec_transact s i, fun hi => ?_, fun hi => ?_, fun hi => ?_⟩
  · rw [hi, transact_encode]
    exact ⟨rfl, writeLanes_read _ _ s.dst⟩
  · rw [hi, transact_classify]
    exact ⟨rfl, rfl⟩
  · rw [hi, transact_benc]
    exact ⟨rfl, rfl⟩

/-- Settles O56: the word's request is placed first, taken off again, and run on the state given. -/
theorem fetchWordIsTheNextTransaction : Obligations.FetchWordIsTheNextTransaction := by
  intro s nbits w
  refine ⟨fun hbits hw => ?_, fun hbits hw => ?_⟩
  · have hword : requestOfWord nbits w = .ok (.encode (BitVec.ofNat 32 w)) := by
      rw [requestOfWord, if_neg (Nat.not_le.mpr hbits), if_pos hw]
    simp only [State.withFetchWord, decodeTableWord, hword, and_true]
    exact step_request (withRequest_script s _)
  · have hword : requestOfWord nbits w = .ok (.benc 0 (BitVec.ofNat 3 w)) := by
      rw [requestOfWord, if_pos hbits, if_pos (by omega)]
    simp only [State.withFetchWord, decodeTableWord, hword, and_true]
    exact step_request (withRequest_script s _)

end Sys2Proof.Machine
end

section
/-! Rules about ENCODE: at the class of the code point the mask cannot be seen, so each class writes fixed bytes, from
which the leading byte gives back the length and the reference decoder the code point. -/

namespace Sys2Proof.Machine

/-- At its own class a code point has a 0 at the bit the wide mask leaks (R155). -/
theorem byteEncoder_classify_eq_wide6 (cp : Cp) :
    byteEncoder .canonical cp (classify cp) = byteEncoder .wide6 cp (classify cp) := by
  simp only [byteEncoder_eq_wide6_iff, classify_eq_two_iff, classify_eq_three_iff, classify_eq_four_iff, cp_bit_iff]
  omega

section
variable (m : LeadMask) (cp : Cp)

/-- At its own class a code point has the CANONICAL outputs in either build (R155). -/
theorem byteEncoder_classify_mask :
    byteEncoder m cp (classify cp) = byteEncoder .canonical cp (classify cp) := by
  cases m with
  | canonical => rfl
  | wide6 => exact (byteEncoder_classify_eq_wide6 cp).symm

theorem muxLanes_classify_mask : muxLanes m cp (classify cp) = muxLanes .canonical cp (classify cp) :=
  congrArg Prod.snd (byteEncoder_classify_mask m cp)

theorem utf8Outputs_mask : utf8Outputs m cp = utf8Outputs .canonical cp := by
  rw [utf8Outputs, utf8Outputs, byteEncoder_classify_mask]

theorem utf8Bytes_mask : utf8Bytes m cp = utf8Bytes .canonical cp := by
  rw [utf8Bytes, utf8Bytes, byteEncoder_classify_mask]

end

section
variable (s : State) {cp : Cp}

/-- DST after ENCODE in class 1 (R122). -/
theorem transact_encode_dst_one (h : classify cp = 1#3) :
    (s.transact .encode cp (classify cp)).dst = #v[asciiByte cp, s.dst[1], s.dst[2], s.dst[3]] := by
  rw [transact_encode, after_dst, h, wemask_one, writeLanes_one, muxLanes_one]
  rfl

/-- DST after ENCODE in class 2, in either build (R123, R155). -/
theorem transact_encode_dst_two (h : classify cp = 2#3) :
    (s.transact .encode cp (classify cp)).dst = #v[lead2 .canonical cp, contByte cp 0, s.dst[2], s.dst[3]] := by
  rw [transact_encode, after_dst, muxLanes_classify_mask, h, wemask_two, writeLanes_two, muxLanes_two]
  rfl

/-- DST after ENCODE in class 3, in either build (R124, R155). -/
theorem transact_encode_dst_three (h : classify cp = 3#3) :
    (s.transact .encode cp (classify cp)).dst =
      #v[lead3 .canonical cp, contByte cp 6, contByte cp 0, s.dst[3]] := by
  rw [transact_encode, after_dst, muxLanes_classify_mask, h, wemask_three, writeLanes_three, muxLanes_three]
  rfl

/-- DST after ENCODE in class 4, in either build (R125, R155). -/
theorem transact_encode_dst_four (h : classify cp = 4#3) :
    (s.transact .encode cp (classify cp)).dst =
      #v[lead4 .canonical cp, contByte cp 12, contByte cp 6, contByte cp 0] := by
  rw [transact_encode, after_dst, muxLanes_classify_mask, h, wemask_four, writeLanes_four, muxLanes_four, pathEnc4]

/-- DST after ENCODE of an unclassifiable code point is as before (R126). -/
theorem transact_encode_dst_zero (h : classify cp = 0#3) : (s.transact .encode cp (classify cp)).dst = s.dst := by
  rw [transact_encode, after_dst, h, wemask_zero, writeLanes_none]

end

/-- The first two bytes ENCODE writes, as numbers, class by class. -/
theorem transact_encode_values (s : State) (cp : Cp) {d : Memory}
    (hd : (s.transact .encode cp (classify cp)).dst = d) :
    ((classify cp).toNat = 1 ∧ d[0].toNat ≤ 0x7F) ∨
    ((classify cp).toNat = 2 ∧ 0x80 ≤ cp.toNat ∧ cp.toNat ≤ 0x7FF ∧ d[0].toNat = 0xC0 + cp.toNat / 64 % 32) ∨
    ((classify cp).toNat = 3 ∧ 0x800 ≤ cp.toNat ∧ cp.toNat ≤ 0xFFFF ∧ d[0].toNat = 0xE0 + cp.toNat / 4096 % 16 ∧
      d[1].toNat = 0x80 + cp.toNat / 64 % 64) ∨
    ((classify cp).toNat = 4 ∧ 0x10000 ≤ cp.toNat ∧ cp.toNat ≤ 0x10FFFF ∧
      d[0].toNat = 0xF0 + cp.toNat / 262144 % 8 ∧ d[1].toNat = 0x80 + cp.toNat / 4096 % 64) ∨
    (classify cp).toNat = 0 := by
  subst hd
  rcases classify_values cp with h | h | h | h | h
  · rw [transact_encode_dst_one s h, h]
    exact .inl ⟨rfl, Nat.le_of_lt_succ ((isB1_iff _).1 (isB1_asciiByte cp))⟩
  · obtain ⟨hlo, hhi⟩ := (classify_eq_two_iff cp).1 h
    rw [transact_encode_dst_two s h, h]
    exact .inr (.inl ⟨rfl, hlo, hhi, lead2_toNat cp⟩)
  · obtain ⟨hlo, hhi⟩ := (classify_eq_three_iff cp).1 h
    rw [transact_encode_dst_three s h, h]
    exact .inr (.inr (.inl ⟨rfl, hlo, hhi, lead3_toNat cp, contByte_toNat cp 6⟩))
  · obtain ⟨hlo, hhi⟩ := (classify_eq_four_iff cp).1 h
    rw [transact_encode_dst_four s h, h]
    exact .inr (.inr (.inr (.inl ⟨rfl, hlo, hhi, lead4_toNat cp, contByte_toNat cp 12⟩)))
  · rw [h]
    exact .inr (.inr (.inr (.inr rfl)))

/-- The length a leading byte announces, as ranges (R70). -/
theorem lengthFromLead_eq_ranges (b : Byte) :
    lengthFromLead b =
      if b.toNat < 0x80 then 1#3
      else if 0xC0 ≤ b.toNat ∧ b.toNat < 0xE0 then 2#3
      else if 0xE0 ≤ b.toNat ∧ b.toNat < 0xF0 then 3#3
      else if 0xF0 ≤ b.toNat ∧ b.toNat < 0xF8 then 4#3
      else 0#3 := by
  simp only [lengthFromLead, isB1_iff, isB2L_iff, isB3L_iff, isB4L_iff]

/-- The first lane of a code point up to CP_MAX announces its class, under either mask (R70). -/
theorem lengthFromLead_muxLanes (m : LeadMask) {cp : Cp} (hcp : cp.toNat ≤ cpMax) :
    lengthFromLead (muxLanes m cp (classify cp))[0] = classify cp := by
  rw [muxLanes_classify_mask]
  rcases classify_values_of_le_cpMax hcp with h | h | h | h
  · have hval : (asciiByte cp).toNat < 0x80 := (isB1_iff _).1 (isB1_asciiByte cp)
    rw [h]
    change lengthFromLead (asciiByte cp) = 1#3
    rw [lengthFromLead_eq_ranges, if_pos hval]
  · rw [h]
    change lengthFromLead (lead2 .canonical cp) = 2#3
    rw [lengthFromLead_eq_ranges, lead2_toNat, if_neg (by omega), if_pos (by omega)]
  · rw [h]
    change lengthFromLead (lead3 .canonical cp) = 3#3
    rw [lengthFromLead_eq_ranges, lead3_toNat, if_neg (by omega), if_neg (by omega), if_pos (by omega)]
  · rw [h]
    change lengthFromLead (lead4 .canonical cp) = 4#3
    rw [lengthFromLead_eq_ranges, lead4_toNat, if_neg (by omega), if_neg (by omega), if_neg (by omega),
      if_pos (by omega)]

/-- A code point below `2 ^ n` is its low `n` bits. -/
theorem setWidth_lowSlice {cp : Cp} {n : Nat} (h : cp.toNat < 2 ^ n) : (cp.extractLsb' 0 n).setWidth 32 = cp := by
  apply BitVec.eq_of_toNat_eq
  rw [BitVec.toNat_setWidth, BitVec.extractLsb'_toNat, Nat.shiftRight_zero, Nat.mod_eq_of_lt h,
    Nat.mod_eq_of_lt cp.isLt]

section
variable (b : Memory)

theorem dec_one : dec 1#3 b = some ((b[0].extractLsb' 0 7).setWidth 32) := rfl

theorem dec_two : dec 2#3 b = some ((b[0].extractLsb' 0 5 ++ b[1].extractLsb' 0 6).setWidth 32) := rfl

theorem dec_three :
    dec 3#3 b = some ((b[0].extractLsb' 0 4 ++ b[1].extractLsb' 0 6 ++ b[2].extractLsb' 0 6).setWidth 32) := rfl

theorem dec_four :
    dec 4#3 b =
      some ((b[0].extractLsb' 0 3 ++ b[1].extractLsb' 0 6 ++ b[2].extractLsb' 0 6 ++ b[3].extractLsb' 0 6).setWidth
        32) := rfl

end

/-- The reference decoder gives back a code point up to CP_MAX from a buffer that starts with its lanes: the payloads
are adjacent slices, and together all bits of the class (R156). -/
theorem dec_of_lanes {m : LeadMask} {cp : Cp} {d : Memory} (hcp : cp.toNat ≤ cpMax)
    (hd : ∀ k : Fin 4, k.val < (classify cp).toNat → d[k] = (muxLanes m cp (classify cp))[k]) :
    dec (classify cp) d = some cp := by
  rcases classify_values_of_le_cpMax hcp with h | h | h | h
  · have hle := (classify_eq_one_iff cp).1 h
    rw [h] at hd ⊢
    have h0 : d[0] = asciiByte cp := hd 0 (by decide)
    rw [dec_one, h0, asciiByte_payload, setWidth_lowSlice (by omega)]
  · have hle := (classify_eq_two_iff cp).1 h
    rw [h] at hd ⊢
    have h0 : d[0] = lead2 m cp := hd 0 (by decide)
    have h1 : d[1] = contByte cp 0 := hd 1 (by decide)
    simp only [dec_two, h0, h1, lead2_payload, contByte_payload, BitVec.extractLsb'_append_extractLsb'_eq_extractLsb']
    rw [setWidth_lowSlice (by omega)]
  · have hle := (classify_eq_three_iff cp).1 h
    rw [h] at hd ⊢
    have h0 : d[0] = lead3 m cp := hd 0 (by decide)
    have h1 : d[1] = contByte cp 6 := hd 1 (by decide)
    have h2 : d[2] = contByte cp 0 := hd 2 (by decide)
    simp only [dec_three, h0, h1, h2, lead3_payload, contByte_payload,
      BitVec.extractLsb'_append_extractLsb'_eq_extractLsb']
    rw [setWidth_lowSlice (by omega)]
  · have hle := (classify_eq_four_iff cp).1 h
    rw [h] at hd ⊢
    have h0 : d[0] = lead4 m cp := hd 0 (by decide)
    have h1 : d[1] = contByte cp 12 := hd 1 (by decide)
    have h2 : d[2] = contByte cp 6 := hd 2 (by decide)
    have h3 : d[3] = contByte cp 0 := hd 3 (by decide)
    simp only [dec_four, h0, h1, h2, h3, lead4_payload, contByte_payload,
      BitVec.extractLsb'_append_extractLsb'_eq_extractLsb']
    rw [setWidth_lowSlice (by omega)]

end Sys2Proof.Machine
end

section
/-! Settled here: the statements of 42_encode_operation.md and 30_encoding.md about the bytes one ENCODE writes, and
that the mask is not seen in them. -/

namespace Sys2Proof.Machine

/-- Settles O33: DST starts with the lanes, which the reference decoder reads. -/
theorem encodeRoundTrips : Obligations.EncodeRoundTrips :=
  fun _ cp _ hs hcp => ⟨_, step_encode hs, dec_of_lanes hcp (transact_encode_read_lane _ cp)⟩

/-- Settles O31: a code point's own class hides the leaked bit. -/
theorem leadMaskIsInertAtTheTop : Obligations.LeadMaskIsInertAtTheTop :=
  fun cp => (utf8Outputs_mask .wide6 cp).symm

/-- Settles O35: in any two states the outputs are the CANONICAL ones, and DST starts with their lanes. -/
theorem encodeDependsOnTheCodePointAlone : Obligations.EncodeDependsOnTheCodePointAlone := by
  intro s s' cp
  refine ⟨_, _, step_withRequest_encode s cp, step_withRequest_encode s' cp, ?_, fun k hk => ?_⟩
  · rw [transact_encode_seen, transact_encode_seen, utf8Outputs_mask, utf8Outputs_mask s'.cfg.leadMask]
  · rw [transact_encode_read_lane s cp k hk, transact_encode_read_lane s' cp k hk, muxLanes_classify_mask,
      muxLanes_classify_mask s'.cfg.leadMask]

/-- Settles O36: the range gives the class, the class DST, and each byte of it has its format. -/
theorem writtenBytesHaveTheirPrefixes : Obligations.WrittenBytesHaveTheirPrefixes := by
  intro s cp
  refine ⟨_, step_withRequest_encode s cp, fun h => ?_, fun hlo hhi => ?_, fun hlo hhi => ?_, fun hlo hhi => ?_,
    fun h => ?_⟩
  · rw [transact_encode_dst_one s ((classify_eq_one_iff cp).2 h)]
    exact ⟨asciiByte_toNat h, rfl, rfl, rfl⟩
  · rw [transact_encode_dst_two s ((classify_eq_two_iff cp).2 ⟨hlo, hhi⟩)]
    exact ⟨isB2L_lead2 cp, isBC_contByte cp 0, rfl, rfl⟩
  · rw [transact_encode_dst_three s ((classify_eq_three_iff cp).2 ⟨hlo, hhi⟩)]
    exact ⟨isB3L_lead3 cp, isBC_contByte cp 6, isBC_contByte cp 0, rfl⟩
  · rw [transact_encode_dst_four s ((classify_eq_four_iff cp).2 ⟨hlo, hhi⟩)]
    exact ⟨isB4L_lead4 cp, isBC_contByte cp 12, isBC_contByte cp 6, isBC_contByte cp 0⟩
  · exact transact_encode_dst_zero s ((classify_eq_zero_iff cp).2 h)

/-- Settles O37: the values of the first two bytes in each class, and of a continuation byte in every class. -/
theorem writtenByteRanges : Obligations.WrittenByteRanges := by
  intro s cp
  have hvalues := transact_encode_values s cp rfl
  have hclass (h : classify cp ≠ 0#3) : (classify cp).toNat ≠ 0 := fun h0 => h (BitVec.eq_of_toNat_eq h0)
  refine ⟨_, step_withRequest_encode s cp, fun h => ?_, fun h => ?_, fun k hk hlt => ?_, fun h hlead => ?_,
    fun h hlead => ?_, fun h hlead => ?_⟩
  · have hone : (classify cp).toNat = 1 := by rw [h]; rfl
    omega
  · omega
  · rw [transact_encode_read_lane s cp k hlt, muxLanes_continuation _ cp _ k (classify_le_four cp) hk hlt,
      contByte_toNat]
    omega
  all_goals
    have hleadValue := congrArg BitVec.toNat hlead
    have hne := hclass h
    simp only [BitVec.toNat_ofNat, Nat.reducePow, Nat.reduceMod] at hleadValue
    omega

/-- Settles O38: DST[0] is the first lane, which announces the class. -/
theorem leadingByteAnnouncesTheLength : Obligations.LeadingByteAnnouncesTheLength := by
  intro s cp hcp
  refine ⟨_, step_withRequest_encode s cp, ?_⟩
  rw [transact_encode_read_lead s rfl (classify_pos_of_le_cpMax hcp), lengthFromLead_muxLanes _ hcp]

/-- Settles O39: the surrogates lie in the range of ENC3, where they fix the leading byte. -/
theorem surrogatesAreEncodedLikeTheirRange : Obligations.SurrogatesAreEncodedLikeTheirRange := by
  intro s cp hlo hhi
  have h3 : classify cp = 3#3 := (classify_eq_three_iff cp).2 (by omega)
  refine ⟨by rw [decode, selectCase, h3]; rfl, _, step_withRequest_encode s cp, ?_⟩
  rw [transact_encode_dst_three s h3]
  have hlead : lead3 .canonical cp = 0xED#8 := by
    rw [← BitVec.toNat_inj, lead3_toNat, BitVec.toNat_ofNat]
    omega
  have hnext : (contByte cp 6).toNat = 0x80 + cp.toNat / 64 % 64 := contByte_toNat cp 6
  refine ⟨hlead, ?_, ?_, isBC_contByte cp 0, rfl, ?_⟩
  · change 0xA0 ≤ (contByte cp 6).toNat
    omega
  · change (contByte cp 6).toNat ≤ 0xBF
    omega
  · rintro rfl
    have hbytes : contByte 0xD800#32 6 = 0xA0#8 ∧ contByte 0xD800#32 0 = 0x80#8 := by decide
    exact hbytes

end Sys2Proof.Machine
end

section
/-! Rules about DST after ENCODE as a whole: as one little-endian word, after the same ENCODE again, and after two
ENCODEs in a row. -/

namespace Sys2Proof.Machine

/-- Byte `k` of a packed word is the byte at `k` (R43). -/
theorem packWord_byte (v : Vector Byte 4) (k : Fin 4) : (packWord v).extractLsb' (8 * k.val) 8 = v[k] := by
  rw [packWord]
  obtain rfl | rfl | rfl | rfl : k = 0 ∨ k = 1 ∨ k = 2 ∨ k = 3 := by omega
  · exact BitVec.extractLsb'_append_eq_right
  · exact (BitVec.extractLsb'_append_eq_of_le (by decide)).trans BitVec.extractLsb'_append_eq_right
  · exact ((BitVec.extractLsb'_append_eq_of_le (by decide)).trans
      (BitVec.extractLsb'_append_eq_of_le (by decide))).trans BitVec.extractLsb'_append_eq_right
  · exact ((BitVec.extractLsb'_append_eq_of_le (by decide)).trans
      (BitVec.extractLsb'_append_eq_of_le (by decide))).trans
      ((BitVec.extractLsb'_append_eq_of_le (by decide)).trans BitVec.extractLsb'_eq_self)

/-- Two words are equal when each of their four bytes is. -/
theorem word_ext {a b : Word} (h : ∀ k : Fin 4, a.extractLsb' (8 * k.val) 8 = b.extractLsb' (8 * k.val) 8) : a = b := by
  apply BitVec.eq_of_getLsbD_eq
  intro i hi
  have hbit := congrArg (·.getLsbD (i % 8)) (h ⟨i / 8, by omega⟩)
  simpa [Nat.div_add_mod, Nat.mod_lt] using hbit

/-- Byte `k` of the mask of a set of enables (R43). -/
theorem byteMask_byte (we : We) (k : Fin 4) :
    (byteMask we).extractLsb' (8 * k.val) 8 = if enabled we k then 0xFF#8 else 0x00#8 := by
  rw [byteMask, packWord_byte]
  fin_cases k <;> rfl

/-- Complement acts on each byte of a word. -/
theorem not_byte (a : Word) (k : Fin 4) : (~~~ a).extractLsb' (8 * k.val) 8 = ~~~ a.extractLsb' (8 * k.val) 8 := by
  ext i hi
  simp
  omega

/-- Writing lanes, seen on the packed word: the enabled bytes of the packed lanes are put in (R43). -/
theorem packWord_writeLanes (we : We) (lane : Lanes) (d : Memory) :
    packWord (writeLanes we lane d) = (packWord d &&& ~~~ byteMask we) ||| (packWord lane &&& byteMask we) := by
  apply word_ext
  intro k
  rw [packWord_byte, writeLanes_read, BitVec.extractLsb'_or, BitVec.extractLsb'_and, BitVec.extractLsb'_and, not_byte,
    byteMask_byte, packWord_byte, packWord_byte]
  have hones (b : Byte) : b &&& 0xFF#8 = b := BitVec.and_allOnes
  cases enabled we k <;> simp [hones]

/-- Writing the same lanes again changes nothing (R47). -/
theorem writeLanes_idem (we : We) (lane : Lanes) (d : Memory) :
    writeLanes we lane (writeLanes we lane d) = writeLanes we lane d := by
  apply memory_ext
  intro k
  simp only [writeLanes_read]
  split_ifs <;> rfl

/-- The same ENCODE again changes nothing (R47). -/
theorem transact_encode_idem (s : State) (cp : Cp) (len : Len) :
    (s.transact .encode cp len).transact .encode cp len = s.transact .encode cp len := by
  simp only [transact_encode, after_cfg, after_dst, writeLanes_idem]
  rfl

/-- Two steps in a row are a run of two. -/
theorem run_two {s u t : State} (h1 : step s = .next u) (h2 : step u = .next t) :
    Host.Core.run core 2 s = .next t :=
  (run_succ_next 1 s t).2 ⟨u, h1, (run_succ_next 0 u t).2 ⟨t, h2, run_zero t⟩⟩

end Sys2Proof.Machine
end

section
/-! Settled here: the statements of 20_memory.md about the packed view of DST, repeated ENCODEs and their order. -/

namespace Sys2Proof.Machine

/-- Settles O41: writing lanes merges the packed words byte by byte. -/
theorem packedViewMergesTheEnabledBytes : Obligations.PackedViewMergesTheEnabledBytes := by
  intro s cp
  refine ⟨_, _, _, step_withRequest_encode s cp, transact_encode_seen s cp, rfl, packWord_byte _, ?_, ?_⟩
  · rw [transact_encode_dst, packWord_writeLanes]
    rfl
  · rintro rfl
    rw [byteEncoder_classify_mask]
    decide

/-- Settles O42: the second ENCODE writes what the first wrote, and shows and counts the same. -/
theorem encodeIsIdempotent : Obligations.EncodeIsIdempotent := fun s cp =>
  ⟨_, _, step_withRequest_encode s cp, step_withRequest_encode _ cp, transact_encode_idem s cp (classify cp)⟩

/-- Settles O43: each ENCODE leaves its lanes below its length and the byte it met above. -/
theorem laterReadsSeeTheMostRecentEncode : Obligations.LaterReadsSeeTheMostRecentEncode := by
  intro s a b rest hs
  have hfirst := step_encode hs
  have hsecond := step_encode (s := (s.advance (.request (.encode b) :: rest)).transact .encode a (classify a))
    (transact_script _ _ _ _)
  refine ⟨_, run_two hfirst hsecond, by simp, fun k => ?_⟩
  rw [transact_encode_read, advance_dst, transact_encode_read, advance_dst]
  simp

end Sys2Proof.Machine
end

section
/-! Rules about steps and runs: the line a step takes, what a run keeps, the same run in the other build, and the same
run with other outputs behind it. -/

namespace Sys2Proof.Machine

@[simp] theorem emit_cfg (s : State) : s.emit.cfg = s.cfg := rfl
@[simp] theorem emit_script (s : State) : s.emit.script = s.script := rfl
@[simp] theorem emit_out (s : State) : s.emit.out = s.out ++ prefixBytes s.lastCount s.dst := rfl

/-- A step that goes on takes the first line off the script (R51). -/
theorem step_script {s t : State} (h : step s = .next t) : t.script = s.script.tail := by
  rcases step_next_cases h with ⟨hs, rfl⟩ | ⟨_, _, hs, rfl⟩ | ⟨_, _, hs, rfl⟩ | ⟨_, _, _, hs, rfl⟩ | ⟨_, hs, rfl⟩ <;>
    simp [hs]

/-- A step that goes on keeps the build (R23). -/
theorem step_cfg {s t : State} (h : step s = .next t) : t.cfg = s.cfg := by
  rcases step_next_cases h with ⟨-, rfl⟩ | ⟨_, _, -, rfl⟩ | ⟨_, _, -, rfl⟩ | ⟨_, _, _, -, rfl⟩ | ⟨_, -, rfl⟩ <;> simp

/-- What every step that goes on keeps, every run that goes on keeps. -/
theorem run_keeps {P : State → Prop} (hstep : ∀ s t, P s → step s = .next t → P t) {k : Nat} {s t : State}
    (hs : P s) (hrun : Host.Core.run core k s = .next t) : P t := by
  induction k generalizing s with
  | zero =>
    cases hrun
    exact hs
  | succ k ih =>
    obtain ⟨u, hu, hrest⟩ := (run_succ_next k s t).1 hrun
    exact ih (hstep s u hs hu) hrest

/-- The same state in a build with the mask `m`. -/
def State.withMask (s : State) (m : LeadMask) : State := { s with cfg := { leadMask := m } }

/-- CLASSIFY and ENCODE put the class on the length bus, and there both builds do the same (R155). -/
theorem transact_withMask (s : State) (m : LeadMask) (t : Transaction) (cp : Cp) :
    (s.withMask m).transact t cp (classify cp) = (s.transact t cp (classify cp)).withMask m := by
  have hlanes : muxLanes (s.withMask m).cfg.leadMask cp (classify cp) = muxLanes s.cfg.leadMask cp (classify cp) :=
    (muxLanes_classify_mask _ cp).trans (muxLanes_classify_mask _ cp).symm
  cases t with
  | classify => rw [transact_classify, transact_classify, hlanes]; rfl
  | encode => rw [transact_encode, transact_encode, hlanes]; rfl
  | benc => rw [transact_benc, transact_benc, hlanes]; rfl

/-- A step that is no BENC is the same step in the other build (R155). -/
theorem step_withMask {s t : State} (m : LeadMask) (hbenc : ∀ cp len, .request (.benc cp len) ∉ s.script)
    (h : step s = .next t) : step (s.withMask m) = .next (t.withMask m) := by
  rcases step_next_cases h with ⟨hs, rfl⟩ | ⟨cp, rest, hs, rfl⟩ | ⟨cp, rest, hs, rfl⟩ | ⟨cp, len, rest, hs, -⟩ |
    ⟨rest, hs, rfl⟩
  · exact step_no_line hs
  · rw [← transact_withMask]
    exact step_classify hs
  · rw [← transact_withMask]
    exact step_encode hs
  · exact absurd (by simp [hs]) (hbenc cp len)
  · exact step_emit hs

/-- A run without BENC is the same run in the other build (R155). -/
theorem run_withMask (k : Nat) (m : LeadMask) {s t : State} (hbenc : ∀ cp len, .request (.benc cp len) ∉ s.script)
    (h : Host.Core.run core k s = .next t) : Host.Core.run core k (s.withMask m) = .next (t.withMask m) := by
  induction k generalizing s with
  | zero =>
    cases h
    rfl
  | succ k ih =>
    obtain ⟨u, hu, hrest⟩ := (run_succ_next k s t).1 h
    have hbenc' : ∀ cp len, .request (.benc cp len) ∉ u.script := by
      intro cp len hmem
      rw [step_script hu] at hmem
      exact hbenc cp len (List.mem_of_mem_tail hmem)
    exact (run_succ_next _ _ _).2 ⟨_, step_withMask m hbenc hu, ih hbenc' hrest⟩

/-- Two states alike in all that a transaction reads: DST, the build and the script, whatever was observed, counted or
logged (R27). -/
structure State.Alike (s' s : State) : Prop where
  model : s'.toModelState = s.toModelState
  cfg : s'.cfg = s.cfg
  script : s'.script = s.script

/-- The outputs of a transaction do not depend on DST (R40). -/
theorem blockTransact_outputs (cfg : Config) (t : Transaction) (cp : Cp) (len : Len) (m m' : ModelState) :
    (blockTransact cfg t cp len m').1 = (blockTransact cfg t cp len m).1 := by
  cases t <;> rfl

section
variable {s s' : State} (h : s'.Alike s)
include h

theorem alike_advance (rest : List Stimulus) : (s'.advance rest).Alike (s.advance rest) :=
  ⟨h.model, h.cfg, rfl⟩

/-- A transaction reads nothing but what alike states share (R27). -/
theorem alike_transact (t : Transaction) (cp : Cp) (len : Len) : (s'.transact t cp len).Alike (s.transact t cp len) :=
  ⟨by rw [transact_model, transact_model, h.model, h.cfg], by rw [transact_cfg, transact_cfg, h.cfg],
    by rw [transact_script, transact_script, h.script]⟩

/-- Alike states step alike (R27). -/
theorem alike_step {t : State} (hstep : step s = .next t) : ∃ t', step s' = .next t' ∧ t'.Alike t := by
  rcases step_next_cases hstep with ⟨hs, rfl⟩ | ⟨cp, rest, hs, rfl⟩ | ⟨cp, rest, hs, rfl⟩ | ⟨cp, len, rest, hs, rfl⟩ |
    ⟨rest, hs, rfl⟩
  · exact ⟨_, step_no_line (h.script.trans hs), h⟩
  · exact ⟨_, step_classify (h.script.trans hs), alike_transact (alike_advance h rest) _ cp _⟩
  · exact ⟨_, step_encode (h.script.trans hs), alike_transact (alike_advance h rest) _ cp _⟩
  · exact ⟨_, step_benc (h.script.trans hs), alike_transact (alike_advance h rest) _ cp len⟩
  · exact ⟨_, step_emit (h.script.trans hs), h.model, h.cfg, rfl⟩

end

/-- Alike states run alike (R27). -/
theorem alike_run (k : Nat) {s s' t : State} (h : s'.Alike s) (hrun : Host.Core.run core k s = .next t) :
    ∃ t', Host.Core.run core k s' = .next t' ∧ t'.Alike t := by
  induction k generalizing s s' with
  | zero =>
    cases hrun
    exact ⟨s', rfl, h⟩
  | succ k ih =>
    obtain ⟨u, hu, hrest⟩ := (run_succ_next k s t).1 hrun
    obtain ⟨u', hu', hlike⟩ := alike_step h hu
    obtain ⟨t', ht', hlike'⟩ := ih hlike hrest
    exact ⟨t', (run_succ_next _ _ _).2 ⟨u', hu', ht'⟩, hlike'⟩

/-- Any request put first in the script completes as its row's transaction. -/
theorem step_withRequest (s : State) (r : Request) :
    step (s.withRequest r) = .next (s.transact (decode r).transaction (decode r).cp (decode r).len) := by
  rw [step_request (withRequest_script s r), exec_transact]
  rfl

end Sys2Proof.Machine
end

section
/-! Settled here: the statements about whole runs: the build, the mask, and the outputs that are not state. -/

namespace Sys2Proof.Machine

/-- Settles O49: every step keeps the build. -/
theorem noRunChangesTheBuild : Obligations.NoRunChangesTheBuild := fun _ s _ hrun =>
  run_keeps (P := fun t => t.cfg = s.cfg) (fun _ _ hcfg hstep => (step_cfg hstep).trans hcfg) rfl hrun

/-- Settles O32: by induction on the run, since no line of the script is a BENC and both builds do the same on the
others. -/
theorem runsDoNotRevealTheLeadMask : Obligations.RunsDoNotRevealTheLeadMask :=
  fun k m m' s _ hbenc hrun => run_withMask k m' (s := s.withMask m) hbenc hrun

/-- Settles O58: alike states run alike, and a transaction's outputs come from the build and the ports. -/
theorem outputsAreNotState : Obligations.OutputsAreNotState := by
  refine ⟨fun k s s' t hmodel hcfg hscript hrun => ?_, fun s s' r hcfg => ?_⟩
  · obtain ⟨t', hrun', hlike⟩ := alike_run k ⟨hmodel, hcfg, hscript⟩ hrun
    exact ⟨t', hrun', hlike.model, hlike.cfg, hlike.script⟩
  · refine ⟨_, _, step_withRequest s r, step_withRequest s' r, ?_⟩
    rw [transact_seen, transact_seen, hcfg, blockTransact_outputs]

end Sys2Proof.Machine
end

section
/-! Rules about EMIT and streams: DST starts with the sequence of the last ENCODE, and sequences put together come apart
in one way only. -/

namespace Sys2Proof.Machine

/-- Buffers alike in their first `n` bytes have the same first `n` bytes. -/
theorem prefixBytes_congr {n : Len} {a b : Memory} (h : ∀ k : Fin 4, k.val < n.toNat → a[k] = b[k]) :
    prefixBytes n a = prefixBytes n b := by
  apply List.ext_getElem
  · simp [prefixBytes]
  · intro i hi _
    have hbounds : i < n.toNat ∧ i < 4 := by simpa [prefixBytes] using hi
    simpa [prefixBytes] using h ⟨i, hbounds.2⟩ hbounds.1

/-- A code point's sequence is the first bytes of its lanes (R42). -/
theorem utf8Bytes_eq_prefixBytes (m : LeadMask) (cp : Cp) :
    utf8Bytes m cp = prefixBytes (classify cp) (muxLanes m cp (classify cp)) := rfl

/-- After ENCODE the first bytes of DST are the sequence (R152, R162). -/
theorem transact_encode_prefix (s : State) (cp : Cp) :
    prefixBytes (classify cp) (s.transact .encode cp (classify cp)).dst = utf8Bytes s.cfg.leadMask cp := by
  rw [utf8Bytes_eq_prefixBytes]
  exact prefixBytes_congr (transact_encode_read_lane s cp)

/-- An unclassifiable code point has no sequence. -/
theorem utf8Bytes_of_classify_zero (m : LeadMask) {cp : Cp} (h : classify cp = 0#3) : utf8Bytes m cp = [] := by
  rw [← List.length_eq_zero_iff, utf8Bytes_length, h]
  rfl

/-- A code point up to CP_MAX has a sequence. -/
theorem utf8Bytes_ne_nil (m : LeadMask) {cp : Cp} (h : cp.toNat ≤ cpMax) : utf8Bytes m cp ≠ [] := by
  have hpos := classify_pos_of_le_cpMax h
  rw [← utf8Bytes_length m cp] at hpos
  exact List.ne_nil_of_length_pos hpos

/-- ENCODE and then EMIT appends the code point's sequence to the log (R162). -/
theorem run_encode_emit {s : State} {cp : Cp} {rest : List Stimulus}
    (hs : s.script = .request (.encode cp) :: .emit :: rest) :
    ∃ t, Host.Core.run core 2 s = .next t ∧ t.script = rest ∧ t.cfg = s.cfg ∧
      t.out = s.out ++ utf8Bytes s.cfg.leadMask cp := by
  have hemit := step_emit (transact_script (s.advance (.emit :: rest)) .encode cp (classify cp))
  refine ⟨_, run_two (step_encode hs) hemit, by simp, by simp, ?_⟩
  have hcount : ((s.advance (.emit :: rest)).transact .encode cp (classify cp)).lastCount = classify cp := rfl
  simp only [emit_out, advance_out, advance_lastCount, advance_dst, transact_out, hcount, transact_encode_prefix,
    advance_cfg]

/-- Code points up to CP_MAX with the same sequence are the same: the length gives the class, and the reference decoder
the code point (R156). -/
theorem utf8Bytes_injective {m : LeadMask} {x y : Cp} (hx : x.toNat ≤ cpMax) (hy : y.toNat ≤ cpMax)
    (h : utf8Bytes m x = utf8Bytes m y) : x = y := by
  have hclass : classify x = classify y := by
    apply BitVec.eq_of_toNat_eq
    rw [← utf8Bytes_length m x, ← utf8Bytes_length m y, h]
  have hlanes : ∀ k : Fin 4, k.val < (classify y).toNat →
      (muxLanes m x (classify x))[k] = (muxLanes m y (classify y))[k] := by
    intro k hk
    apply Option.some.inj
    rw [← utf8Bytes_getElem? m x k (by rwa [hclass]), ← utf8Bytes_getElem? m y k hk, h]
  have hdecX : dec (classify x) (muxLanes m x (classify x)) = some x := dec_of_lanes hx fun _ _ => rfl
  have hdecY : dec (classify y) (muxLanes m x (classify x)) = some y := dec_of_lanes hy hlanes
  rw [← hclass, hdecX] at hdecY
  exact Option.some.inj hdecY

/-- The first byte of a stream that begins with the sequence of `cp` announces the class of `cp` (R70). -/
theorem lengthFromLead_append {m : LeadMask} {cp : Cp} (hcp : cp.toNat ≤ cpMax) (rest : List Byte) :
    ((utf8Bytes m cp ++ rest)[0]?).map lengthFromLead = some (classify cp) := by
  have hpos : 0 < (classify cp).toNat := classify_pos_of_le_cpMax hcp
  have hhead : (utf8Bytes m cp)[0]? = some (muxLanes m cp (classify cp))[0] := utf8Bytes_getElem? m cp 0 hpos
  rw [List.getElem?_append_left (by rwa [utf8Bytes_length]), hhead, Option.map_some]
  exact congrArg some (lengthFromLead_muxLanes m hcp)

/-- Two streams that are equal begin with the same code point, and go on alike. -/
theorem utf8Bytes_append_inj {m : LeadMask} {x y : Cp} (hx : x.toNat ≤ cpMax) (hy : y.toNat ≤ cpMax)
    {r r' : List Byte} (h : utf8Bytes m x ++ r = utf8Bytes m y ++ r') : x = y ∧ r = r' := by
  have hclass : classify x = classify y := by
    apply Option.some.inj
    rw [← lengthFromLead_append (m := m) hx r, h, lengthFromLead_append hy]
  obtain ⟨hseq, hrest⟩ := List.append_inj h (by rw [utf8Bytes_length, utf8Bytes_length, hclass])
  exact ⟨utf8Bytes_injective hx hy hseq, hrest⟩

end Sys2Proof.Machine
end

section
/-! Settled here: the statements about EMIT, the log and streams of code points. -/

namespace Sys2Proof.Machine

/-- Settles O50: EMIT appends the first bytes of DST, which after ENCODE are the sequence. -/
theorem emitAppendsTheLastSequence : Obligations.EmitAppendsTheLastSequence := by
  refine ⟨fun s rest hs => step_emit hs, fun s cp rest hs => ?_⟩
  obtain ⟨t, hrun, hscript, -, hout⟩ := run_encode_emit hs
  exact ⟨t, hrun, hscript, hout⟩

/-- Settles O51: by induction on the list, two steps for each code point. -/
theorem streamIsTheSequencesInOrder : Obligations.StreamIsTheSequencesInOrder := by
  intro cps
  induction cps with
  | nil => exact fun s rest hs => ⟨s, run_zero s, by simpa using hs, rfl, by simp⟩
  | cons c cps ih =>
    intro s rest hs
    obtain ⟨u, hu, huscript, hucfg, huout⟩ := run_encode_emit (s := s) (by simpa using hs)
    obtain ⟨t, ht, htscript, htcfg, htout⟩ := ih u rest huscript
    refine ⟨t, ?_, htscript, htcfg.trans hucfg, ?_⟩
    · rw [List.length_cons, Nat.mul_succ, Nat.add_comm]
      exact run_add 2 _ s u t hu ht
    · rw [htout, huout, hucfg, List.flatMap_cons, List.append_assoc]

/-- Settles O52: by induction on one list, since equal streams begin with the same code point. -/
theorem streamDeterminesItsCodePoints : Obligations.StreamDeterminesItsCodePoints := by
  intro m xs
  induction xs with
  | nil =>
    intro ys _ hys h
    cases ys with
    | nil => rfl
    | cons y ys =>
      have hnil := (List.append_eq_nil_iff.1 h.symm).1
      exact absurd hnil (utf8Bytes_ne_nil m (hys y List.mem_cons_self))
  | cons x xs ih =>
    intro ys hxs hys h
    cases ys with
    | nil =>
      have hnil := (List.append_eq_nil_iff.1 h).1
      exact absurd hnil (utf8Bytes_ne_nil m (hxs x List.mem_cons_self))
    | cons y ys =>
      obtain ⟨hx, hxs'⟩ := List.forall_mem_cons.1 hxs
      obtain ⟨hy, hys'⟩ := List.forall_mem_cons.1 hys
      obtain ⟨rfl, hrest⟩ := utf8Bytes_append_inj hx hy h
      rw [ih ys hxs' hys' hrest]

end Sys2Proof.Machine
end

section
/-! Rules about the invariant `State.Inv`: each of its three parts under the operations that touch it. -/

namespace Sys2Proof.Machine

/-- The invariant at power-up: no byte counted, nothing logged, nothing shown (R28, R241). -/
theorem powerUp_inv (cfg : Config) (d : Memory) : (State.powerUp cfg d).Inv where
  current := ⟨0x110000#32, rfl, rfl⟩
  stream := ⟨[], by simp, rfl⟩
  shown := by simp

/-- Taking a line off the script keeps the invariant. -/
theorem advance_inv {s : State} (h : s.Inv) (rest : List Stimulus) : (s.advance rest).Inv :=
  ⟨h.current, h.stream, h.shown⟩

/-- What a transaction shows, with the class on the length bus or through BENC with any length, the hardware can show
(R24, R120). -/
theorem transact_shown (s : State) (t : Transaction) (cp : Cp) (len : Len) (ht : t ≠ .benc → len = classify cp) :
    ∀ o, (s.transact t cp len).seen = some o → o.Possible s.cfg.leadMask := by
  intro o ho
  rw [transact_seen, Option.some.injEq] at ho
  subst ho
  cases t with
  | classify => exact ⟨cp, by rw [ht (by decide)]; rfl⟩
  | encode => exact ⟨cp, by rw [ht (by decide)]; rfl⟩
  | benc => exact ⟨cp, len, rfl⟩

section
variable {s : State} (h : s.Inv)
include h

/-- A transaction that stores nothing keeps the invariant. -/
theorem transact_inv_of_not_encode {t : Transaction} {cp : Cp} {len : Len} (hstore : t ≠ .encode)
    (hclass : t ≠ .benc → len = classify cp) : (s.transact t cp len).Inv where
  current := by
    cases t with
    | classify => exact h.current
    | encode => exact absurd rfl hstore
    | benc => exact h.current
  stream := by
    rw [transact_out]
    exact h.stream
  shown := by
    rw [transact_cfg]
    exact transact_shown s t cp len hclass

/-- ENCODE makes its code point the current one. -/
theorem transact_encode_inv (cp : Cp) : (s.transact .encode cp (classify cp)).Inv where
  current := ⟨cp, rfl, (transact_encode_prefix s cp).trans (utf8Bytes_mask _ cp)⟩
  stream := by
    rw [transact_out]
    exact h.stream
  shown := by
    rw [transact_cfg]
    exact transact_shown s .encode cp _ fun _ => rfl

/-- EMIT adds the current code point to those of the log, or nothing where it is unclassifiable (R162). -/
theorem emit_inv : s.emit.Inv where
  current := h.current
  stream := by
    obtain ⟨cp, hcount, hprefix⟩ := h.current
    obtain ⟨cps, hmax, hout⟩ := h.stream
    by_cases hcp : cp.toNat ≤ cpMax
    · refine ⟨cps ++ [cp], ?_, ?_⟩
      · simpa [or_imp, forall_and, hcp] using hmax
      · rw [emit_out, hprefix, hout]
        simp
    · refine ⟨cps, hmax, ?_⟩
      rw [emit_out, hprefix, utf8Bytes_of_classify_zero _ (classify_above_cpMax (Nat.not_le.mp hcp)), List.append_nil,
        hout]
  shown := h.shown

end

end Sys2Proof.Machine
end

section
/-! Settled here: the invariant, and what holds at power-up. -/

namespace Sys2Proof.Machine

/-- Settles O53: each thing a step can do keeps the invariant. -/
theorem everyStepKeepsTheInvariant : Obligations.EveryStepKeepsTheInvariant := by
  intro s t hinv hstep
  rcases step_next_cases hstep with ⟨-, rfl⟩ | ⟨cp, rest, -, rfl⟩ | ⟨cp, rest, -, rfl⟩ | ⟨cp, len, rest, -, rfl⟩ |
    ⟨rest, -, rfl⟩
  · exact hinv
  · exact transact_inv_of_not_encode (advance_inv hinv rest) (by decide) fun _ => rfl
  · exact transact_encode_inv (advance_inv hinv rest) cp
  · exact transact_inv_of_not_encode (advance_inv hinv rest) (by decide) fun ht => absurd rfl ht
  · exact emit_inv (advance_inv hinv rest)

/-- Settles O54: reset is power-up in the default build over zeros. -/
theorem powerUpMeetsTheInvariant : Obligations.PowerUpMeetsTheInvariant :=
  ⟨powerUp_inv, powerUp_inv _ _⟩

/-- Settles O55: power-up's fields, by definition. -/
theorem powerUpObservesNothing : Obligations.PowerUpObservesNothing :=
  ⟨fun cfg d => ⟨powerUp_seen d cfg, powerUp_dst d cfg, powerUp_cfg d cfg⟩, rfl⟩

end Sys2Proof.Machine
end
